-- ==== Sys2Proof/Word.lean ====
section
/-! DEFINITION. The bit patterns the manual writes down: bytes, the 64-bit port words and addresses, the 32-bit
sums and counters, and the 4096-byte block (spec/00_scope.md, "Conventions"). -/

namespace Sys2Proof

/-- One byte of a record, a port word or a block. -/
abbrev Byte := BitVec 8

/-- A 64-bit port word, record word or result word (little-endian, spec/00_scope.md "Byte order"). -/
abbrev Word64 := BitVec 64

/-- A 32-bit sum or counter: the check word (R125), the image sum (R126), the close counter (R18). -/
abbrev Word32 := BitVec 32

/-- An address in front-end memory. -/
abbrev Address := BitVec 64

/-- The bytes of one 4096-byte block that are not zero, by ascending offset. A byte that is not listed is 0, so equal
blocks are equal lists and a block of zeros is the empty list. -/
abbrev Block := List Host.Cell

end Sys2Proof
end

