-- ==== Sys2Proof/Syntax.lean ====
section
/-! DEFINITION. The commands and events of spec/opcode_table.json, one constructor of `Instr` for each row, with the
records that they carry: chain records (R144), media blocks with their tags (R85, R75) and system blocks (R124, R126, R127). -/

namespace Sys2Proof

/-- The two ports. -/
inductive Port where
  | a
  | b
deriving DecidableEq, Repr

/-- The nine placement streams: A0 to A3, B0 to B3 and the cleaner stream. -/
inductive Stream where
  | a0 | a1 | a2 | a3
  | b0 | b1 | b2 | b3
  | cleaner
deriving DecidableEq, Repr

/-- The four slot accounts of R62. -/
inductive Account where
  | portA
  | portB
  | cleaner
  | general
deriving DecidableEq, Repr

/-- A stream preference (R2). -/
inductive Preference where
  | outer
  | inner
deriving DecidableEq, Repr

/-- The per-zone items of the geometry record (R2): S(z), K(z), Cyl0(z) and Nb(z). -/
structure Zone where
  blocks : Nat
  skew : Nat
  cyl0 : Nat
  bands : Nat
deriving DecidableEq, Repr

/-- The geometry record (R2), with defaults supplied. `zones` holds zones 1, 2, … in order, so the item Zones is its
length. `prefs` holds the preferences of A0 to A3 and then B0 to B3. -/
structure Geometry where
  heads : Nat
  zones : List Zone
  tracks : Nat
  guards : Nat
  sysCyl : Nat
  userBlocks : Nat
  mapCap : Nat
  slots : Nat
  low : Nat
  crit : Nat
  minRun : Nat
  gatherIdle : Nat
  prefs : List Preference
deriving DecidableEq, Repr

/-- The band states of R18. -/
inductive BandState where
  | empty
  | opened
  | full
  | cleaning
  | retired
deriving DecidableEq, Repr

/-- One record of the extent map (R41). -/
structure Extent where
  first : Nat
  length : Nat
  band : Nat
  offset : Nat
deriving DecidableEq, Repr

/-- What a checkpoint image keeps of a band record (R126). -/
structure BandImage where
  state : BandState
  wp : Nat
  done : Nat
  live : Nat
  closeNumber : Option Word32
  footer : Bool
  faults : Nat
deriving DecidableEq, Repr

/-- The kinds of a band summary entry (R75). -/
inductive EntryKind where
  | host
  | relocated
  | pad
  | none
deriving DecidableEq, Repr

/-- A band summary entry, a footer entry or the entry of a tag (R75, R85). `lbn` is meant for HOST and RELOCATED and is
0 otherwise; `run` is 0 for a NONE entry except in the tag of a footer block; `source` is present for RELOCATED. -/
structure Entry where
  kind : EntryKind
  lbn : Nat
  run : Nat
  source : Option (Nat × Nat)
deriving DecidableEq, Repr

/-- The tag written with every block of a band (R85): its entry and the check word of the geometry record. -/
structure Tag where
  entry : Entry
  check : Word32
deriving DecidableEq, Repr

/-- The header of a checkpoint image (R126). The checkpoint mark is the constructor `SysBlock.header` itself. -/
structure ImageHeader where
  sequence : Nat
  check : Word32
  watermark : Nat
  extents : Nat
  closeCounter : Word32
  firstUnreleased : Nat
  sum : Word32
deriving DecidableEq, Repr

/-- What a journal record says (R127). -/
inductive JournalKind where
  | trim (first count run : Nat)
  | retire (band : Nat)
deriving DecidableEq, Repr

/-- A journal record with its journal sequence (R127). -/
structure JournalRecord where
  sequence : Nat
  kind : JournalKind
deriving DecidableEq, Repr

/-- The contents of one block of the system area (R124, R126, R127). The manual gives these blocks by their contents and
not by a byte layout. `unmarked` is a block that bears no mark of any of these kinds. -/
inductive SysBlock where
  | unmarked
  | geometry (items : Geometry) (check : Word32)
  | header (h : ImageHeader)
  | extents (records : List Extent)
  | bands (records : List BandImage)
  | journal (records : List JournalRecord)
deriving DecidableEq, Repr

/-- The contents of one media block: a block of user data (or a pad block of zeros), a footer block with its entries, or
a system block. -/
inductive Content where
  | user (data : Block)
  | footer (entries : List Entry)
  | system (block : SysBlock)
deriving DecidableEq, Repr

/-- One block as the channel carries it: contents and tag. System blocks carry no tag (R85), and a block may be read back
without one. -/
structure MediaBlock where
  content : Content
  tag : Option Tag
deriving DecidableEq, Repr

/-- The 64 bytes of a record of a chain (R144) as eight little-endian words: word i holds bytes 8 i to 8 i + 7. -/
structure RecordWords where
  w0 : Word64
  w1 : Word64
  w2 : Word64
  w3 : Word64
  w4 : Word64
  w5 : Word64
  w6 : Word64
  w7 : Word64
deriving DecidableEq, Repr

/-- What the Port Engine has of a command when it takes it (R146): the fields of its command record, its pieces in chain
order, the address of its last record and that record's next address. -/
structure CommandRecord where
  flags : Byte
  stream : Byte
  count : BitVec 32
  lbn : Word64
  pieces : List Word64
  last : Address
  next : Address
deriving DecidableEq, Repr

/-- The word transactions of R143 that change nothing: a write of DONE MARK or STATUS, a write of CONTROL whose action is
0 or above 6, and any access that is not a 64-bit access at the offset of a port word. -/
inductive IgnoredAccess where
  | doneMark (value : Word64)
  | status (value : Word64)
  | controlNone (value : Word64)
  | invalid (offset width : Nat)
deriving DecidableEq, Repr

/-- The rows of spec/opcode_table.json. The operands of a row are what the event carries: the port or stream it happens
at, the value written, the record or blocks an answer brings. -/
inductive Instr where
  /-- RESET (R123). -/
  | reset
  /-- SHOCK_INPUT_CHANGE (R98): the new level of the SHOCK input. -/
  | shockInputChange (asserted : Bool)
  /-- SHOCK_MASK_END (R98). -/
  | shockMaskEnd
  /-- SHOCK_EVENT (R99). -/
  | shockEvent
  /-- SHOCK_WINDOW_EXPIRY (R100). -/
  | shockWindowExpiry
  /-- QUIET_TIMER_EXPIRY (R101). -/
  | quietTimerExpiry
  /-- SEEK_DONE (R94). -/
  | seekDone
  /-- SEEK_FAILED (R94). -/
  | seekFailed
  /-- CHANNEL_NOT_READY_ANSWER (R94). -/
  | channelNotReadyAnswer
  /-- NOT_READY_NOTICE (R93). -/
  | notReadyNotice
  /-- READY_REPORT (R93): the channel's cylinder count. -/
  | readyReport (cylinders : Nat)
  /-- READINESS_TIMER_EXPIRY (R93): the queued operation whose timer expires. -/
  | readinessTimerExpiry (op : Nat)
  /-- READY_WAIT_EXPIRY (R94). -/
  | readyWaitExpiry
  /-- WRITE_TRANSFER_GOOD (R95). -/
  | writeTransferGood
  /-- WRITE_FAULT (R95): the number of blocks written before the fault. -/
  | writeFault (blocks : Nat)
  /-- ABORTED (R99): the number of blocks written before the abort. -/
  | aborted (blocks : Nat)
  /-- READ_ERROR (R96): the blocks delivered before the block in error, which is the transfer's block number
  `delivered.length`. -/
  | readError (delivered : List MediaBlock)
  /-- READ_TRANSFER_GOOD (R96): the blocks of the transfer. -/
  | readTransferGood (blocks : List MediaBlock)
  /-- OPERATION_AGED (R88): the queued operation that has waited 250 ms. -/
  | operationAged (op : Nat)
  /-- ARBITER_GRANT (R89). -/
  | arbiterGrant
  /-- MEDIA_QUEUE_ENTRY (R86). -/
  | mediaQueueEntry
  /-- RUN_BUILD (R72). -/
  | runBuild (st : Stream)
  /-- FOOTER_WRITE_BUILD (R76). -/
  | footerWriteBuild (st : Stream)
  /-- PAD_RUN_BUILD (R79). -/
  | padRunBuild (st : Stream)
  /-- BAND_GRANT (R21). -/
  | bandGrant
  /-- GATHER_IDLE_EXPIRY (R71). -/
  | gatherIdleExpiry (st : Stream)
  /-- PLACEMENT_WAIT_EXPIRY (R71). -/
  | placementWaitExpiry (st : Stream)
  /-- MAP_WAIT_EXPIRY (R55). -/
  | mapWaitExpiry (st : Stream)
  /-- RECORD_WAIT_GRANT (R55). -/
  | recordWaitGrant
  /-- SLOT_GRANT (R63). -/
  | slotGrant (account : Account)
  /-- PULL_COMPLETE (R65): the block pulled for a WRITE of the port's in-flight list. -/
  | pullComplete (p : Port) (cmd : Nat) (block : Block)
  /-- ACCEPTANCE (R66). -/
  | acceptance (p : Port)
  /-- TRIM_APPLY (R56): the TRIM whose trim the Map Unit applies. -/
  | trimApply (p : Port) (cmd : Nat)
  /-- TRIM_MAP_WAIT_EXPIRY (R56). -/
  | trimMapWaitExpiry (p : Port) (cmd : Nat)
  /-- VICTIM_SCAN_END (R111). -/
  | victimScanEnd
  /-- RECHECK_TIMER_EXPIRY (R117). -/
  | recheckTimerExpiry
  /-- CHECK_WORD_TEST (R125). -/
  | checkWordTest
  /-- WATERMARK_EVENT (R129). -/
  | watermarkEvent
  /-- CONFIG_CLOSE_HOLD_EXPIRY (R16). -/
  | configCloseHoldExpiry
  /-- RECORD_READ_ANSWER (R146): the record read. -/
  | recordReadAnswer (p : Port) (words : RecordWords)
  /-- CONTINUATION_READ_ANSWER (R146): the continuation record read. -/
  | continuationReadAnswer (p : Port) (words : RecordWords)
  /-- POLL_NEXT_READ_ANSWER (R147): the next address read. -/
  | pollNextReadAnswer (p : Port) (next : Address)
  /-- RECORD_POLL_ANSWER (R148): the record read. -/
  | recordPollAnswer (p : Port) (words : RecordWords)
  /-- POLL_TIMER_EXPIRY (R147). -/
  | pollTimerExpiry (p : Port)
  /-- PUSH_ANSWER (R159): the push that is answered, by its command and its block or page index. -/
  | pushAnswer (p : Port) (cmd index : Nat)
  /-- WRITE_BACK_START (R151). -/
  | writeBackStart (p : Port)
  /-- WRITE_BACK_NEXT_READ_ANSWER (R152): the next address read. -/
  | writeBackNextReadAnswer (p : Port) (next : Address)
  /-- WRITE_BACK_STATUS_ANSWER (R151). -/
  | writeBackStatusAnswer (p : Port)
  /-- WRITE_BACK_EVENT (R151). -/
  | writeBackEvent (p : Port)
  /-- PACING_TIMER_EXPIRY (R181). -/
  | pacingTimerExpiry (p : Port)
  /-- LINK_FAULT (R141). -/
  | linkFault (p : Port)
  /-- LINK_LOSS (R142). -/
  | linkLoss (p : Port)
  /-- LINK_UP (R142). -/
  | linkUp (p : Port)
  /-- CHAIN_HEAD (R149): the word written. -/
  | chainHead (p : Port) (value : Word64)
  /-- RESUME (R147). -/
  | resume (p : Port)
  /-- ACK_MARK (R182): the word written. -/
  | ackMark (p : Port) (value : Word64)
  /-- SETTINGS (R184): the word written. -/
  | settings (p : Port) (value : Word64)
  /-- START (R150). -/
  | start (p : Port)
  /-- STOP (R150). -/
  | stop (p : Port)
  /-- TEARDOWN (R153). -/
  | teardown (p : Port)
  /-- RESET_PORT (R154). -/
  | resetPort (p : Port)
  /-- RELEASE_WRITE_HOLD (R100). -/
  | releaseWriteHold (p : Port)
  /-- CLEAR_FLAGS (R155): the clear mask, one bit per flag in STATUS order. -/
  | clearFlags (p : Port) (mask : BitVec 6)
  /-- PORT_WORD_WRITE_IGNORED (R143). -/
  | portWordWriteIgnored (p : Port) (access : IgnoredAccess)
  /-- NOP (R170). -/
  | nop (p : Port) (c : CommandRecord)
  /-- READ (R158). -/
  | read (p : Port) (c : CommandRecord)
  /-- WRITE (R160). -/
  | write (p : Port) (c : CommandRecord)
  /-- TRIM (R162). -/
  | trim (p : Port) (c : CommandRecord)
  /-- FLUSH (R163). -/
  | flush (p : Port) (c : CommandRecord)
  /-- LOCATE (R164). -/
  | locate (p : Port) (c : CommandRecord)
  /-- BAND_REPORT (R165). -/
  | bandReport (p : Port) (c : CommandRecord)
  /-- CHECKPOINT (R166). -/
  | checkpoint (p : Port) (c : CommandRecord)
  /-- TAKEOVER (R174). -/
  | takeover (p : Port) (c : CommandRecord)
  /-- CONFIG_WRITE (R168). -/
  | configWrite (p : Port) (c : CommandRecord)
  /-- CONFIG_CLOSE (R169). -/
  | configClose (p : Port) (c : CommandRecord)
deriving DecidableEq, Repr

end Sys2Proof
end

