-- ==== Sys2Proof/Decode.lean ====
section
/-! DEFINITION. The commands that a word spells: none by the bits of spec/opcode_table.json, whose rows give no bits, and
those of a write to a port's window by the table of port words (R143). -/

namespace Sys2Proof

/-- The command that a word spells by the bits of spec/opcode_table.json. No row of the table gives bits, so no word spells
one: every row is an event on a link, a pin, a timer or inside the part. DESIGN CHOICE, log entry 24. -/
def decodeTableWord (_nbits _w : Nat) : Option Instr := none

/-- The command of a write of CONTROL (R143): bits 3 to 0 hold the action, bits 21 to 16 the clear mask. -/
def controlWrite (p : Port) (value : Word64) : Instr :=
  match (value.extractLsb' 0 4).toNat with
  | 1 => .start p
  | 2 => .stop p
  | 3 => .teardown p
  | 4 => .resetPort p
  | 5 => .releaseWriteHold p
  | 6 => .clearFlags p (value.extractLsb' 16 6)
  | _ => .portWordWriteIgnored p (.controlNone value)

/-- The command of a write to a port's window (R143): by its byte offset in the window, its width in bytes and its value. -/
def portWrite (p : Port) (offset width : Nat) (value : Word64) : Instr :=
  if width = 8 then
    match offset with
    | 0 => .chainHead p value
    | 8 => .resume p
    | 16 => .ackMark p value
    | 24 => .portWordWriteIgnored p (.doneMark value)
    | 32 => controlWrite p value
    | 40 => .settings p value
    | 48 => .portWordWriteIgnored p (.status value)
    | _ => .portWordWriteIgnored p (.invalid offset width)
  else .portWordWriteIgnored p (.invalid offset width)

end Sys2Proof
end

