-- ==== Sys2Proof/Config.lean ====
section
/-! DEFINITION. The constants of the manual (limits, capacities, waits) and the values that it leaves open: the 32-bit sums
of image blocks, whose byte layout the manual does not give, and the order of different READs' lookups stand as constants
without a body. -/

namespace Sys2Proof.Config

/-- Bytes of user data in a block (spec/00_scope.md, "Units of data"). -/
def blockBytes : Nat := 4096

/-- Commands in one in-flight list at most (R145). -/
def inFlightLimit : Nat := 32

/-- Operations in the media queue at most, the one in flight included (R86). -/
def queueLimit : Nat := 64

/-- Entries of the pending-apply list at most (R58). -/
def pendingLimit : Nat := 64

/-- The greatest length of an extent record (R41, R46). -/
def extentLimit : Nat := 65535

/-- The number of numbers the 48-bit run counter can hand out (R57). At this value it has handed out its last. -/
def runLimit : Nat := 281474976710656

/-- Unreleased journal records at most, which is also the number of record places (R127). -/
def journalPlaces : Nat := 65536

/-- Record places in one block of the journal region (R127). -/
def journalPerBlock : Nat := 128

/-- Blocks of the journal region (R11). -/
def journalBlocks : Nat := 512

/-- Extent records in one map block of a checkpoint image (R126). -/
def extentsPerBlock : Nat := 256

/-- Band records in one band table block of a checkpoint image (R126). -/
def bandsPerBlock : Nat := 128

/-- Footer entries in one footer block (R4). -/
def entriesPerFooterBlock : Nat := 256

/-- Blocks of one read run of a port or of the Cleaner at most (R158, R114). -/
def readRunLimit : Nat := 64

/-- Blocks of one scan read at most (R112). -/
def scanReadLimit : Nat := 8

/-- Outstanding reads of the Cleaner at most (R105). -/
def cleanerReads : Nat := 4

/-- Seek retries of one operation (R94) and read retries of one block (R96). -/
def retryLimit : Nat := 4

/-- Reissues of a system write that completes WRITE FAULT (R130, R169). -/
def reissueLimit : Nat := 2

/-- Shock events in the window that latch WRITE HOLD (R100). -/
def holdEvents : Nat := 8

/-- The write fault that retires a band (R32). -/
def retireFaults : Nat := 3

/-- The cleaner share count that lets class 5 pass (R89, R91). -/
def shareLimit : Nat := 7

/-- EMPTY bands below which no port stream is granted one (R20). -/
def portBandFloor : Nat := 3

/-- Band closes that request a checkpoint (R128). -/
def closesPerCheckpoint : Nat := 256

/-- The greatest value of the close count (R123). -/
def closeCountLimit : Nat := 65535

/-- The default of the gather idle time in ms (R2). -/
def gatherIdleDefault : Nat := 20

/-- The autopoll time stored where more was written, in ms (R143). -/
def autopollLimit : Nat := 15

/-- The greatest age used in a BACKGROUND score (R110). -/
def ageLimit : Nat := 65535

/-- The sum modulo 4,294,967,296 of a map block taken as 32-bit words (R126). The manual gives no byte layout of the
records in it, so its value is left free. DESIGN CHOICE, log entry 23. -/
opaque extentBlockSum : List Extent → Word32

/-- The sum modulo 4,294,967,296 of a band table block taken as 32-bit words (R126), free for the same reason.
DESIGN CHOICE, log entry 23. -/
opaque bandBlockSum : List BandImage → Word32

/-- Which READ makes the next lookup, or which BAND REPORT reads its next band record, where several have some left: R158 and
R165 leave open how those of different commands interleave, so the choice is left free. It is applied to a count of the choices
made. DESIGN CHOICE, log entry 8. -/
opaque lookupTurn : Nat → Nat

end Sys2Proof.Config
end

