-- ==== Sys2Proof/Machine/State.lean ====
section
/-! DEFINITION. The state of the HB4210 as plain data, unit by unit as spec/00_scope.md lists the blocks and what they own,
and the state after RESET. -/

namespace Sys2Proof.Machine

/-- One value for each port. -/
structure PerPort (α : Type) where
  a : α
  b : α
deriving DecidableEq, Repr

/-- One value for each of the nine streams. -/
structure PerStream (α : Type) where
  a0 : α
  a1 : α
  a2 : α
  a3 : α
  b0 : α
  b1 : α
  b2 : α
  b3 : α
  cleaner : α
deriving DecidableEq, Repr

/-- One value for each of the four slot accounts (R62). -/
structure PerAccount (α : Type) where
  portA : α
  portB : α
  cleaner : α
  general : α
deriving DecidableEq, Repr

/-! ### Geometry Unit (R1) -/

/-- The draft's status (R1). -/
inductive DraftStatus where
  | editable
  | closing
deriving DecidableEq, Repr

/-- One draft item that is present: its item number and index as R168 numbers them, and its value as written. -/
structure DraftItem where
  item : Nat
  index : Nat
  value : Nat
deriving DecidableEq, Repr

/-- The Geometry Unit (R1). The derived quantities of R3 to R5 and R11 are functions of the record in force. -/
structure GeometryUnit where
  /-- The record in force (R1), absent after RESET. -/
  inForce : Option Geometry
  /-- The check word computed when the record came into force (R125). -/
  checkWord : Word32
  /-- The items of the draft that are present (R1, R13). -/
  draft : List DraftItem
  status : DraftStatus
  /-- The channel cylinder count (R1, R12). -/
  cylinders : Option Nat
deriving DecidableEq, Repr

/-! ### Band Table Unit (R18) -/

/-- A band record (R18). -/
structure BandRecord where
  state : BandState
  wp : Nat
  done : Nat
  live : Nat
  owner : Option Stream
  closeNumber : Option Word32
  footer : Bool
  faults : Nat
  refs : Nat
  suspect : Option (Nat × Nat)
deriving DecidableEq, Repr

/-- The Band Table Unit (R18), with the Cleaner's release request that it may hold (R35). -/
structure BandTable where
  records : List BandRecord
  emptyCount : Nat
  closeCounter : Word32
  openWait : List Stream
  /-- The band whose release request is held (R35). -/
  release : Option Nat
  /-- The MODEL's own: an event that R35 names has come while the release is held, and its test stands at that event's end
  (log entry 10). -/
  retest : Bool
deriving DecidableEq, Repr

/-! ### Map Unit (R40) -/

/-- One change of the map: a removal (R45) or an insertion (R46). -/
inductive MapChange where
  | remove (first last : Nat)
  | insert (piece : Extent)
deriving DecidableEq, Repr

/-- What a request on the record wait list is for (R53, R54, R56). -/
inductive RecordRequest where
  /-- A placer that has a run to build. -/
  | placer (st : Stream)
  /-- The acceptance of the first pulled block of a port, which must supersede the WRITING slot `old`. -/
  | accept (p : Port) (old : Nat)
  /-- A trim. -/
  | trim (p : Port) (cmd : Nat)
deriving DecidableEq, Repr

/-- A trim handed to the Map Unit and not yet applied (R56): its TRIM command and its range. -/
structure TrimRequest where
  port : Port
  cmd : Nat
  first : Nat
  last : Nat
deriving DecidableEq, Repr

/-- The Map Unit (R40). -/
structure MapUnit where
  /-- The extent table, by ascending first LBN. -/
  table : List Extent
  freeCount : Nat
  reserved : Nat
  /-- The next number of the run counter; `Config.runLimit` when the last has been handed out (R57). -/
  runCounter : Nat
  /-- The pending-apply list, each entry the changes of one run or trim in order (R58, R59). -/
  pendingApply : List (List MapChange)
  /-- Entry places of the pending-apply list promised to runs built and not ended (R58). -/
  promised : Nat
  writePhase : Bool
  recordWait : List RecordRequest
  /-- Placers and trims that found no entry place, and wait till the write-phase flag is cleared (R58). -/
  phaseWait : List RecordRequest
  /-- Trims not yet applied, in the order they were handed over. -/
  trims : List TrimRequest
deriving DecidableEq, Repr

/-! ### Staging Manager (R61) -/

/-- The states of a slot other than FREE (R61). A slot that is not listed is FREE. -/
inductive SlotState where
  | filling
  | gathered
  | writing
  | held
  | reading
  | cleaning
deriving DecidableEq, Repr

/-- The kinds of a staged block (R61). -/
inductive SlotKind where
  | host
  | relocated
  | replaced
deriving DecidableEq, Repr

/-- The origin of a slot (R61). -/
inductive SlotOrigin where
  | stream (st : Stream)
  | port (p : Port)
deriving DecidableEq, Repr

/-- The place of a WRITING or HELD slot (R61). -/
structure SlotPlace where
  band : Nat
  offset : Nat
  track : Nat
deriving DecidableEq, Repr

/-- A slot record that is not FREE, with the block the slot holds (R61). -/
structure Slot where
  number : Nat
  state : SlotState
  lbn : Nat
  origin : SlotOrigin
  kind : Option SlotKind
  command : Option (Port × Nat)
  superseded : Bool
  pins : Nat
  releaseDue : Bool
  place : Option SlotPlace
  source : Option (Nat × Nat)
  damaged : Option (Nat × Nat)
  data : Block
deriving DecidableEq, Repr

/-- A slot request that waits (R63). -/
inductive SlotRequest where
  /-- A FILLING slot for a block of a WRITE. -/
  | fill (p : Port) (cmd : Nat) (st : Stream) (lbn : Nat)
  /-- A READING slot for a block of a port's read run. -/
  | reading (run : Nat) (p : Port) (lbn : Nat)
  /-- A CLEANING slot for a block of the Cleaner's read run. -/
  | cleaning (run : Nat) (lbn offset : Nat)
deriving DecidableEq, Repr

/-- One entry of the staging index (R67). -/
structure IndexEntry where
  lbn : Nat
  slot : Nat
deriving DecidableEq, Repr

/-- The Staging Manager (R61, R62, R63, R67, R172). -/
structure Staging where
  /-- The number N of slots of the pool; 0 while no record is in force. -/
  size : Nat
  /-- The slots that are not FREE, by ascending number. -/
  slots : List Slot
  index : List IndexEntry
  charges : PerAccount Nat
  requests : PerAccount (List SlotRequest)
  /-- The owner of group A and of group B (R172). -/
  owners : PerPort Port
  /-- The model's own count of the choices among READs that have lookups left and BAND REPORTs that have band records left, to
  which `Config.lookupTurn` is applied. No state of the manual. DESIGN CHOICE, log entry 8. -/
  lookups : Nat
deriving DecidableEq, Repr

/-! ### Stream Placers (R69) -/

/-- The pad states of R69 and R79. -/
inductive PadState where
  | none
  | placing
  | padding (target : Nat)
deriving DecidableEq, Repr

/-- Who made a pad request (R80). -/
inductive PadOwner where
  | command (p : Port) (cmd : Nat)
  | cleaner
deriving DecidableEq, Repr

/-- An open pad request: the slots of its set that are not yet FREE (R80). -/
structure PadRequest where
  owner : PadOwner
  slots : List Nat
deriving DecidableEq, Repr

/-- The kinds of run a placer builds. -/
inductive RunKind where
  | data
  | pad
  | footer
deriving DecidableEq, Repr

/-- The outstanding run of a placer (R69), with the records it reserved (R53, R54) and whether it claimed an entry place
of the pending-apply list (R58). -/
structure OutstandingRun where
  op : Nat
  kind : RunKind
  band : Nat
  first : Nat
  count : Nat
  slots : List Nat
  number : Nat
  reserved : Nat
  claimed : Bool
deriving DecidableEq, Repr

/-- A Stream Placer (R69). -/
structure Placer where
  queue : List Nat
  band : Option Nat
  run : Option OutstandingRun
  retention : List Nat
  /-- The band summary: the entries that are not NONE, by ascending offset (R75). -/
  summary : List (Nat × Entry)
  idleTimer : Bool
  idleDue : Bool
  pad : PadState
  requests : List PadRequest
  /-- The placer is in its band wait; for a port stream its 5-s timer runs (R71). -/
  bandWait : Bool
  /-- The placer's map wait runs (R55). -/
  mapWait : Bool
deriving DecidableEq, Repr

/-! ### Media Arbiter and Media Sequencer (R85, R86, R94, R99) -/

/-- The kinds of a media operation (R85). -/
inductive OpKind where
  | readRun
  | writeRun
  | verifyRun
  | footerWrite
  | systemRead
  | systemWrite
deriving DecidableEq, Repr

/-- The place of an operation (R85). -/
inductive OpPlace where
  | band (band first : Nat)
  | system (index : Nat)
deriving DecidableEq, Repr

/-- The origin of an operation (R85). -/
inductive OpOrigin where
  | port (p : Port)
  | stream (st : Stream)
  | cleaner
  | recovery
deriving DecidableEq, Repr

/-- The work of the Recovery Unit that a system operation or rebuild read belongs to. -/
inductive RecoveryTask where
  | none
  | loadGeometry (copy : Bool)
  | rewriteCopy
  | closeWrite
  | checkpointWrite
  | journalWrite
  | rebuildRead
deriving DecidableEq, Repr

/-- A media operation (R85). `command` and `blocks` say, for a port READ RUN, which READ it serves and which of that
READ's blocks its blocks are; `scan` marks a scan read of the Cleaner; `counted` marks a verify run that counts toward the
shock's outstanding count (R101). -/
structure MediaOp where
  id : Nat
  kind : OpKind
  pad : Bool
  place : OpPlace
  count : Nat
  run : Nat
  origin : OpOrigin
  slots : List (Option Nat)
  entries : List Entry
  system : List SysBlock
  arrival : Nat
  aged : Bool
  command : Nat
  blocks : List Nat
  scan : Bool
  counted : Bool
  task : RecoveryTask
deriving DecidableEq, Repr

/-- The run that a placer waits to build (R86): its kind, the slots it would take and its length. -/
structure WaitingRun where
  kind : RunKind
  slots : List Nat
  count : Nat
deriving DecidableEq, Repr

/-- A waiter of the entry wait list (R86): an operation that exists, or a placer for the run it would build, which it builds
when it enters. -/
inductive Waiter where
  | op (m : MediaOp)
  | placer (st : Stream) (run : WaitingRun)
deriving DecidableEq, Repr

/-- A read run before it enters the queue (R114, R158): the open run of a READ whose lookups go on, or a run that is closed and
waits for slots. -/
structure FormingRead where
  id : Nat
  origin : OpOrigin
  command : Nat
  band : Nat
  first : Nat
  lbns : List Nat
  blocks : List Nat
  slots : List Nat
  isOpen : Bool
deriving DecidableEq, Repr

/-- The class 3 turn (R90). -/
inductive Turn3 where
  | portA
  | portB
  | cleaner
deriving DecidableEq, Repr

/-- The Media Arbiter (R86), with the read runs that wait for slots before they enter the queue. -/
structure MediaArbiter where
  /-- The queued operations that are not in flight. -/
  queue : List MediaOp
  entryWait : List Waiter
  forming : List FormingRead
  turn3 : Turn3
  turn4 : Stream
  share : Nat
  /-- The order of arrivals: the next number for an operation's identity or arrival time. -/
  stamp : Nat
deriving DecidableEq, Repr

/-- The sequencer states (R94). -/
inductive SeqState where
  | idle
  | positioning
  | transferring
  | aborting
  | waitingReady
deriving DecidableEq, Repr

/-- What the sequencer sends on the channel link (section 5.3). -/
inductive ChannelRequest where
  | seek (cylinder head : Nat)
  | readTransfer (sector count : Nat)
  | writeTransfer (sector count : Nat) (blocks : List MediaBlock)
  | abort
deriving DecidableEq, Repr

/-- The operation in flight (R94, R96): where it is, the first block not yet done, the blocks delivered so far (`none` for
an unrecovered block), the seek retries, and the block being retried with its retry count. -/
structure InFlight where
  op : MediaOp
  cylinder : Nat
  head : Nat
  sector : Nat
  trackBlocks : Nat
  next : Nat
  delivered : List (Option MediaBlock)
  seekRetries : Nat
  retry : Option (Nat × Nat)
  /-- The data of the read run is discarded at its end (R87, R171). -/
  discard : Bool
  /-- The operation was aborted in POSITIONING and only the answer to its SEEK is awaited (R99). -/
  ended : Bool
deriving DecidableEq, Repr

/-- The shock states (R99). -/
inductive ShockState where
  | clear
  | quiet
  | verifying
deriving DecidableEq, Repr

/-- A verify in progress on a band (R102): the verify runs still to complete and the offsets that failed so far. -/
structure Verify where
  band : Nat
  first : Nat
  last : Nat
  remaining : Nat
  fails : List Nat
deriving DecidableEq, Repr

/-- The Media Sequencer with the shock state (R93, R94, R98 to R102). -/
structure Sequencer where
  ready : Bool
  state : SeqState
  current : Option InFlight
  /-- A SEEK of a system write that has gone back to the queue is still unanswered (R97, R99). -/
  staleSeek : Bool
  /-- The last request sent on the channel link that is not yet answered. -/
  sent : Option ChannelRequest
  /-- The level of the SHOCK input. -/
  shockPin : Bool
  /-- The 20-µs filter runs. -/
  shockFilter : Bool
  /-- The assertion now present has given its event (R98). -/
  shockTaken : Bool
  /-- The shock mask is in force. -/
  shockMask : Bool
  shock : ShockState
  quietTimer : Bool
  affected : List Nat
  outstanding : Nat
  /-- The shock window: one number for each shock event of the last 1 s, oldest first (R100). -/
  window : List Nat
  /-- The number the next shock event takes. -/
  shockStamp : Nat
  writeHold : Bool
  verifies : List Verify
deriving DecidableEq, Repr

/-! ### Cleaner (R105) -/

/-- The cleaner modes (R106). -/
inductive CleanerMode where
  | idle
  | background
  | urgent
deriving DecidableEq, Repr

/-- The cleaner states (R107). -/
inductive CleanerState where
  | idle
  | selecting
  | relocating
  | draining
  | releasing
deriving DecidableEq, Repr

/-- The marks of the retired list (R105). -/
inductive RetiredMark where
  | awaiting
  | attempted
deriving DecidableEq, Repr

/-- The victim kinds (R105). -/
inductive VictimKind where
  | cleaning
  | retired
deriving DecidableEq, Repr

/-- The two scans of a victim (R112, R113). -/
inductive ScanKind where
  | footer
  | tags
deriving DecidableEq, Repr

/-- The scan of the victim: its kind, the next offset the footer scan describes, and the offset ranges (first, end) whose
tags are to be read before it goes on (R112, R113). -/
structure VictimScan where
  kind : ScanKind
  cursor : Nat
  ranges : List (Nat × Nat)
deriving DecidableEq, Repr

/-- The scan of the band table for a victim (R111): the mode it began in, the next band to read, and the band kept so far
with its score. -/
structure TableScan where
  mode : CleanerMode
  cursor : Nat
  kept : Option (Nat × Nat)
deriving DecidableEq, Repr

/-- The Cleaner (R105). -/
structure Cleaner where
  mode : CleanerMode
  state : CleanerState
  retired : List (Nat × RetiredMark)
  victim : Option (Nat × VictimKind)
  /-- The table scan under way in SELECTING; absent while the Cleaner waits for an eligible band. -/
  table : Option TableScan
  scan : Option VictimScan
  scanBuffer : List MediaBlock
  /-- A scan read is formed and not completed. -/
  scanRead : Bool
  candidates : List (Nat × Nat)
  outstanding : Nat
  inRelocation : Nat
  recheck : List (Nat × Nat)
  unknown : List Nat
  recheckTimer : Bool
  drain : Bool
  /-- A report that starts a new scan has been made (R111). -/
  rescan : Bool
  /-- The capacity part of the cleaner room when it was last looked at (R111). -/
  roomSeen : Nat
deriving DecidableEq, Repr

/-! ### Recovery Unit (R123) -/

/-- The part states. -/
inductive PartState where
  | loading
  | unconfigured
  | rebuilding
  | ready
  | faulted
deriving DecidableEq, Repr

/-- The two images of the checkpoint area (R126). -/
inductive ImageSlot where
  | first
  | second
deriving DecidableEq, Repr

/-- The outcome of reading a copy of the geometry record (R124). -/
inductive CopyResult where
  | valid (g : Geometry)
  | blank
  | neither
deriving DecidableEq, Repr

/-- The checkpoint states (R123). -/
inductive CheckpointState where
  | idle
  | quiescing
  | writing
  | finishing
deriving DecidableEq, Repr

/-- The checkpoint under way (R129, R130): watermark, image written, the values fixed at the watermark, and the write
that is outstanding: from which image block, how many blocks, reissued how often; in FINISHING, the journal sequence below
which the records stand that its end waits for (R131). -/
structure Checkpoint where
  state : CheckpointState
  watermark : Nat
  slot : ImageSlot
  bands : List BandImage
  closeCounter : Word32
  unreleased : Nat
  cursor : Nat
  count : Nat
  reissues : Nat
  finishUpTo : Nat
deriving DecidableEq, Repr

/-- Who waits for the answer to a journal write request (R133). -/
inductive JournalRequester where
  | command (p : Port) (cmd : Nat)
  | checkpoint
deriving DecidableEq, Repr

/-- A journal record that is unreleased, and whether it has been written (R127, R132). -/
structure JournalEntry where
  record : JournalRecord
  written : Bool
deriving DecidableEq, Repr

/-- The journal write state (R133): WRITING while `active`, with the sequences taken, the journal blocks still to write
(the first is outstanding) and the requesters; the further-write flag and its requesters. -/
structure JournalWrite where
  active : Bool
  taken : List Nat
  blocks : List Nat
  reissues : Nat
  requesters : List JournalRequester
  further : Bool
  furtherRequesters : List JournalRequester
deriving DecidableEq, Repr

/-- Where a CONFIG CLOSE that passed checks 1 to 20 stands (R15, R16, R169). -/
inductive CloseStep where
  | awaitReady
  | image (cursor count : Nat)
  | block1
  | block0
deriving DecidableEq, Repr

/-- A CONFIG CLOSE under way: its command, the checked record and its step. -/
structure CloseWork where
  port : Port
  cmd : Nat
  record : Geometry
  step : CloseStep
  reissues : Nat
deriving DecidableEq, Repr

/-- A candidate band of the rebuild (R135, R136): the entries taken, by ascending offset, whether the footer was used,
and the last written offset. -/
structure Candidate where
  band : Nat
  start : Nat
  floor : Nat
  footerUsed : Bool
  taken : List (Nat × Entry)
  last : Option Nat
deriving DecidableEq, Repr

/-- The steps of the rebuild (R134 to R139). -/
inductive RebuildStep where
  | header (slot : ImageSlot)
  | image (slot : ImageSlot)
  | journal
  | startTag (band track : Nat)
  | footer
  | tags (offset : Nat) (hopping : Bool)
  | sweep
  | checkpoint
deriving DecidableEq, Repr

/-- The rebuild's progress (R134 to R138). -/
structure Rebuild where
  step : RebuildStep
  /-- The valid headers read so far. -/
  headers : List (ImageSlot × ImageHeader)
  /-- The header of the image being read or chosen. -/
  header : Option ImageHeader
  /-- Image blocks read, extent records and band records gathered from them, and their sum. -/
  cursor : Nat
  extents : List Extent
  bands : List BandImage
  sum : Word32
  candidates : List Candidate
  /-- Candidates whose contents are still to be read; the first is being read. -/
  todo : List Candidate
  /-- Run number of the last block taken from the candidate being read. -/
  lastRun : Nat
  /-- One above the highest run number read, and 0 while none has been read (R139). -/
  above : Nat
  /-- Places (LBN, band, offset) whose tags the sweep has still to read. -/
  sweep : List (Nat × Nat × Nat)
deriving DecidableEq, Repr

/-- The Recovery Unit (R123). -/
structure Recovery where
  part : PartState
  /-- The reads of the two geometry copies have been issued (R124). -/
  loadIssued : Bool
  copy0 : Option CopyResult
  copy1 : Option CopyResult
  lastImage : Option ImageSlot
  sequence : Nat
  checkpoint : Checkpoint
  joined : List (Port × Nat)
  next : List (Port × Nat)
  /-- A further checkpoint is due (R128). -/
  due : Bool
  closeCount : Nat
  /-- The unreleased journal records in order of sequence; the unwritten ones are those not marked written. -/
  journal : List JournalEntry
  /-- The next journal sequence, a 64-bit number of R127 held without a bound. DESIGN CHOICE, log entry 15. -/
  nextSequence : Nat
  firstUnreleased : Nat
  journalWrite : JournalWrite
  /-- Retirements whose RETIRE record is held apart for want of a place (R132). -/
  heldRetires : List Nat
  close : Option CloseWork
  rebuild : Option Rebuild
deriving DecidableEq, Repr

/-! ### Port Engines (R145) -/

/-- The process states of a port. -/
inductive Process where
  | stopped
  | running
  | suspendedEnd
  | suspendedNotOwned
  | halted
deriving DecidableEq, Repr

/-- The halt causes (R143). -/
inductive HaltCause where
  | none
  | linkFault
  | linkLost
  | chainFormat
deriving DecidableEq, Repr

/-- The position of the chain walk (R145). -/
inductive Position where
  | none
  | atRecord (record : Address)
  | afterRecord (record : Address)
deriving DecidableEq, Repr

/-- The chain walk's record read or next read that is outstanding (R140, R146 to R148). A continuation read keeps the
command record, the pieces gathered so far, and the address being read. -/
inductive Walk where
  | idle
  | record
  | continuation (head : RecordWords) (pieces : List Word64) (address : Address)
  | pollNext
  | pollRecord
deriving DecidableEq, Repr

/-- The status codes (section 9.1). -/
inductive Status where
  | done
  | range
  | badCommand
  | streamInvalid
  | mediaError
  | mapExhausted
  | noSpace
  | notReady
  | notConfigured
  | refusedState
  | geometryInvalid
  | torn
  | partFault
deriving DecidableEq, Repr

/-- What a finished command's status area holds (R144, section 9.1). -/
structure Completion where
  status : Status
  blocks : Nat
  result0 : Word64
  result1 : Word64
deriving DecidableEq, Repr

/-- Why a block of a READ failed (R159). -/
inductive FailedBlock where
  | unrecovered
  | notRead
deriving DecidableEq, Repr

/-- What a command in execution has done so far. -/
inductive Work where
  /-- Nothing, or nothing that it has to remember. -/
  | none
  /-- READ (R158, R159): the next block to look up and whether its staging lookup has answered NOT STAGED; blocks staged,
  unmapped, pushed, and those that failed by index. -/
  | read (next : Nat) (missed : Bool) (staged unmapped pushed : Nat) (failed : List (Nat × FailedBlock))
  /-- WRITE (R160): the next block to ask a slot for, the blocks accepted, and the LBNs that have been built into runs. -/
  | write (next accepted : Nat) (built : List Nat)
  /-- TRIM (R162): whether it is applied. -/
  | trim (applied : Bool)
  /-- FLUSH (R163): slots in its sets at the taking, and the answer of its journal write. -/
  | flush (total : Nat) (journal : Option Bool)
  /-- BAND REPORT (R165): the next band record to read, counted from the first; those read for the block of entries that is not
  yet pushed, each with its band; and the entries pushed and answered. -/
  | report (next : Nat) (read : List (Nat × BandRecord)) (entries : Nat)
  /-- CHECKPOINT (R166). -/
  | checkpoint
  /-- CONFIG CLOSE (R169). -/
  | close
deriving DecidableEq, Repr

/-- A command of the in-flight list (R145). RUNNING while `status` is absent, FINISHED with it otherwise. -/
structure Command where
  id : Nat
  opcode : Nat
  record : CommandRecord
  first : Address
  /-- Its last record's next address was read as 0 and has not been found non-zero since (R152). -/
  endsChain : Bool
  held : Bool
  status : Option Completion
  work : Work
deriving DecidableEq, Repr

/-- The transactions of a write-back (R151), with what each writes: bytes 40 to 63 as three words, then the flags byte. -/
inductive WriteBack where
  | nextRead
  | statusWrite (eoq : Bool) (word5 word6 word7 : Word64)
  | flagsWrite (eoq : Bool) (flags : Byte)
deriving DecidableEq, Repr

/-- A push that is outstanding (R140): the command, the block or page index, the address written, the block, and the slot
it comes from. -/
structure Push where
  cmd : Nat
  index : Nat
  address : Address
  block : Block
  slot : Option Nat
deriving DecidableEq, Repr

/-- The latched flags a port sets itself (R155). WRITE HOLD is the part's latch. -/
structure PortFlags where
  linkFault : Bool
  headWhileRunning : Bool
  chainFormat : Bool
  partFault : Bool
  takenOver : Bool
deriving DecidableEq, Repr

/-- A pull that is under way (R65, R140): its command, the block index, the address it reads, and the FILLING slot it
fills. -/
structure Pull where
  cmd : Nat
  index : Nat
  address : Address
  slot : Nat
deriving DecidableEq, Repr

/-- A Port Engine (R145). -/
structure PortEngine where
  process : Process
  cause : HaltCause
  position : Position
  stopRequested : Bool
  teardown : Bool
  list : List Command
  /-- The number the next command taken gets. -/
  nextId : Nat
  walk : Walk
  /-- The poll timer: the time in ms it runs for. -/
  pollTimer : Option Nat
  writeBack : Option WriteBack
  /-- FILLING slots whose pulls have completed and whose blocks are not yet accepted, in order of completion (R65). -/
  pulled : List Nat
  pushes : List Push
  doneMark : Word64
  writeBacks : BitVec 6
  ackMark : Word64
  autopoll : Nat
  flags : PortFlags
  /-- The port link's connection state is UP (R142). -/
  linkUp : Bool
  /-- A part transaction whose answer is to be discarded may still be unanswered (R141, R150, R153). -/
  late : Bool
deriving DecidableEq, Repr

/-- A Notice Unit (R180). -/
structure NoticeUnit where
  /-- The count machine is COUNTING. -/
  counting : Bool
  tally : Nat
  /-- The time machine is in DELAY. -/
  delay : Bool
  /-- Its timer runs. -/
  timer : Bool
  released : Bool
  pacingCount : Nat
  pacingTime : Nat
  stagedCount : Nat
  stagedTime : Nat
  mask : BitVec 6
deriving DecidableEq, Repr

/-- The state of the part, with the queue of the commands that wait. -/
structure State where
  geo : GeometryUnit
  bands : BandTable
  map : MapUnit
  staging : Staging
  placers : PerStream Placer
  media : MediaArbiter
  seq : Sequencer
  cleaner : Cleaner
  recovery : Recovery
  ports : PerPort PortEngine
  notices : PerPort NoticeUnit
  /-- The commands and events that wait, first in, first out. -/
  pending : List Instr
deriving DecidableEq, Repr

/-- Why a step stops with a fault. -/
inductive Fault where
  /-- Raised by ARBITER_GRANT when the granted operation's place lies outside the geometry. R9 says that this does not
  arise, so no state that a run reaches raises it. Safe: the model stops where the manual describes nothing. -/
  | addressOutOfRange
deriving DecidableEq, Repr

/-- Why a command is refused. -/
inductive Refusal where
  /-- Raised by `exec` for a row that has no meaning. No arm raises it. Safe: the model stops. -/
  | notModelled (mnemonic : String)
deriving DecidableEq, Repr

/-! ### The state after RESET -/

/-- The Geometry Unit after RESET (R1). -/
def GeometryUnit.reset : GeometryUnit :=
  { inForce := none, checkWord := 0, draft := [], status := .editable, cylinders := none }

/-- The Band Table Unit after RESET (R19). -/
def BandTable.reset : BandTable :=
  { records := [], emptyCount := 0, closeCounter := 0, openWait := [], release := none, retest := false }

/-- The Map Unit after RESET (R40). -/
def MapUnit.reset : MapUnit :=
  { table := [], freeCount := 0, reserved := 0, runCounter := 0, pendingApply := [], promised := 0, writePhase := false,
    recordWait := [], phaseWait := [], trims := [] }

/-- The Staging Manager after RESET (R61, R172). -/
def Staging.reset : Staging :=
  { size := 0, slots := [], index := [], charges := ⟨0, 0, 0, 0⟩, requests := ⟨[], [], [], []⟩, owners := ⟨.a, .b⟩,
    lookups := 0 }

/-- A Stream Placer after RESET (R69). -/
def Placer.reset : Placer :=
  { queue := [], band := none, run := none, retention := [], summary := [], idleTimer := false, idleDue := false,
    pad := .none, requests := [], bandWait := false, mapWait := false }

/-- The Media Arbiter after RESET (R86). -/
def MediaArbiter.reset : MediaArbiter :=
  { queue := [], entryWait := [], forming := [], turn3 := .portA, turn4 := .a0, share := 0, stamp := 0 }

/-- The Media Sequencer after RESET (R93, R94, R98 to R100). -/
def Sequencer.reset : Sequencer :=
  { ready := false, state := .idle, current := none, staleSeek := false, sent := none, shockPin := false,
    shockFilter := false, shockTaken := false, shockMask := true, shock := .clear, quietTimer := false, affected := [],
    outstanding := 0, window := [], shockStamp := 0, writeHold := false, verifies := [] }

/-- The Cleaner after RESET (R105). -/
def Cleaner.reset : Cleaner :=
  { mode := .idle, state := .idle, retired := [], victim := none, table := none, scan := none, scanBuffer := [],
    scanRead := false, candidates := [], outstanding := 0, inRelocation := 0, recheck := [], unknown := [],
    recheckTimer := false, drain := false, rescan := false, roomSeen := 0 }

/-- No checkpoint under way. -/
def Checkpoint.reset : Checkpoint :=
  { state := .idle, watermark := 0, slot := .first, bands := [], closeCounter := 0, unreleased := 0, cursor := 0,
    count := 0, reissues := 0, finishUpTo := 0 }

/-- The journal write state IDLE with the further-write flag clear. -/
def JournalWrite.reset : JournalWrite :=
  { active := false, taken := [], blocks := [], reissues := 0, requesters := [], further := false,
    furtherRequesters := [] }

/-- The Recovery Unit after RESET (R123). -/
def Recovery.reset : Recovery :=
  { part := .loading, loadIssued := false, copy0 := none, copy1 := none, lastImage := none, sequence := 0,
    checkpoint := Checkpoint.reset, joined := [], next := [], due := false, closeCount := 0, journal := [],
    nextSequence := 0, firstUnreleased := 0, journalWrite := JournalWrite.reset, heldRetires := [], close := none,
    rebuild := none }

/-- Every latched flag clear. -/
def PortFlags.reset : PortFlags :=
  { linkFault := false, headWhileRunning := false, chainFormat := false, partFault := false, takenOver := false }

/-- A Port Engine after RESET (R145). The manual gives no connection state after RESET: UP. DESIGN CHOICE, log entry 6. -/
def PortEngine.reset : PortEngine :=
  { process := .stopped, cause := .none, position := .none, stopRequested := false, teardown := false, list := [],
    nextId := 0, walk := .idle, pollTimer := none, writeBack := none, pulled := [], pushes := [], doneMark := 0,
    writeBacks := 0, ackMark := 0, autopoll := 0, flags := PortFlags.reset, linkUp := true, late := false }

/-- A Notice Unit after RESET (R180). -/
def NoticeUnit.reset : NoticeUnit :=
  { counting := false, tally := 0, delay := false, timer := false, released := false, pacingCount := 0, pacingTime := 0,
    stagedCount := 0, stagedTime := 0, mask := 0 }

/-- The part after RESET, with no command waiting. DESIGN CHOICE, log entry 27. -/
def State.reset : State :=
  { geo := GeometryUnit.reset
    bands := BandTable.reset
    map := MapUnit.reset
    staging := Staging.reset
    placers := ⟨Placer.reset, Placer.reset, Placer.reset, Placer.reset, Placer.reset, Placer.reset, Placer.reset,
      Placer.reset, Placer.reset⟩
    media := MediaArbiter.reset
    seq := Sequencer.reset
    cleaner := Cleaner.reset
    recovery := Recovery.reset
    ports := ⟨PortEngine.reset, PortEngine.reset⟩
    notices := ⟨NoticeUnit.reset, NoticeUnit.reset⟩
    pending := [] }

end Sys2Proof.Machine
end

