-- ==== Sys2Proof/Machine/Ops.lean ====
section
/-! DEFINITION. The named operations over the parts of the state: one unit of two, nine or four, a block's bytes, sorted
lists. The manual's rules are written over these. -/

namespace Sys2Proof.Machine

/-! ### One of two, of nine, of four -/

/-- The other port. -/
def otherPort : Port → Port
  | .a => .b
  | .b => .a

def PerPort.get {α : Type} (v : PerPort α) : Port → α
  | .a => v.a
  | .b => v.b

def PerPort.set {α : Type} (v : PerPort α) (p : Port) (x : α) : PerPort α :=
  match p with
  | .a => { v with a := x }
  | .b => { v with b := x }

def PerStream.get {α : Type} (v : PerStream α) : Stream → α
  | .a0 => v.a0
  | .a1 => v.a1
  | .a2 => v.a2
  | .a3 => v.a3
  | .b0 => v.b0
  | .b1 => v.b1
  | .b2 => v.b2
  | .b3 => v.b3
  | .cleaner => v.cleaner

def PerStream.set {α : Type} (v : PerStream α) (st : Stream) (x : α) : PerStream α :=
  match st with
  | .a0 => { v with a0 := x }
  | .a1 => { v with a1 := x }
  | .a2 => { v with a2 := x }
  | .a3 => { v with a3 := x }
  | .b0 => { v with b0 := x }
  | .b1 => { v with b1 := x }
  | .b2 => { v with b2 := x }
  | .b3 => { v with b3 := x }
  | .cleaner => { v with cleaner := x }

def PerAccount.get {α : Type} (v : PerAccount α) : Account → α
  | .portA => v.portA
  | .portB => v.portB
  | .cleaner => v.cleaner
  | .general => v.general

def PerAccount.set {α : Type} (v : PerAccount α) (k : Account) (x : α) : PerAccount α :=
  match k with
  | .portA => { v with portA := x }
  | .portB => { v with portB := x }
  | .cleaner => { v with cleaner := x }
  | .general => { v with general := x }

/-- The streams in the order of the class 4 turn (R90). -/
def allStreams : List Stream := [.a0, .a1, .a2, .a3, .b0, .b1, .b2, .b3, .cleaner]

/-- The four streams of a group (R172). -/
def groupStreams : Port → List Stream
  | .a => [.a0, .a1, .a2, .a3]
  | .b => [.b0, .b1, .b2, .b3]

/-- The group a port stream belongs to (R172); none for the cleaner stream. -/
def streamGroup : Stream → Option Port
  | .a0 => some .a
  | .a1 => some .a
  | .a2 => some .a
  | .a3 => some .a
  | .b0 => some .b
  | .b1 => some .b
  | .b2 => some .b
  | .b3 => some .b
  | .cleaner => none

/-- The stream a stream byte names on a port: 0 to 3 its own streams, 4 to 7 the other port's (R172). -/
def streamOfNumber (p : Port) (n : Nat) : Option Stream :=
  if n < 4 then (groupStreams p)[n]? else (groupStreams (otherPort p))[n - 4]?

/-- The place of a port stream in the list of preferences (R2). -/
def streamIndex : Stream → Nat
  | .a0 => 0
  | .a1 => 1
  | .a2 => 2
  | .a3 => 3
  | .b0 => 4
  | .b1 => 5
  | .b2 => 6
  | .b3 => 7
  | .cleaner => 8

/-- The account of a port (R62). -/
def portAccount : Port → Account
  | .a => .portA
  | .b => .portB

/-! ### The state's units -/

def State.port (s : State) (p : Port) : PortEngine := s.ports.get p

def State.setPort (s : State) (p : Port) (e : PortEngine) : State := { s with ports := s.ports.set p e }

def State.modPort (s : State) (p : Port) (f : PortEngine → PortEngine) : State := s.setPort p (f (s.port p))

def State.notice (s : State) (p : Port) : NoticeUnit := s.notices.get p

def State.setNotice (s : State) (p : Port) (n : NoticeUnit) : State := { s with notices := s.notices.set p n }

def State.placer (s : State) (st : Stream) : Placer := s.placers.get st

def State.setPlacer (s : State) (st : Stream) (x : Placer) : State := { s with placers := s.placers.set st x }

def State.modPlacer (s : State) (st : Stream) (f : Placer → Placer) : State := s.setPlacer st (f (s.placer st))

/-- Change the Cleaner. While the part is FAULTED its state stays as it stands (R107). -/
def State.modCleaner (s : State) (f : Cleaner → Cleaner) : State :=
  { s with cleaner := if s.recovery.part = .faulted then s.cleaner else f s.cleaner }

/-! ### The bytes of a block -/

/-- The byte of a block at an offset. -/
def blockRead : Block → Nat → Byte
  | [], _ => 0
  | c :: rest, k => if c.1 = k then c.2 else blockRead rest k

/-- The block with one byte written, kept in its one form: offsets rising, no listed byte 0. -/
def blockWrite : Block → Nat → Byte → Block
  | [], k, v => if v = 0 then [] else [(k, v)]
  | c :: rest, k, v =>
    if c.1 < k then c :: blockWrite rest k v
    else if c.1 = k then (if v = 0 then rest else (k, v) :: rest)
    else if v = 0 then c :: rest else (k, v) :: c :: rest

/-- The block with consecutive bytes written from an offset on. -/
def blockWriteAll (b : Block) (k : Nat) : List Byte → Block
  | [] => b
  | v :: vs => blockWriteAll (blockWrite b k v) (k + 1) vs

/-- The block of zeros. -/
def zeroBlock : Block := []

/-- The `n` lowest bytes of a number, least significant first (spec/00_scope.md, "Byte order"). -/
def littleEndian : Nat → Nat → List Byte
  | 0, _ => []
  | n + 1, v => BitVec.ofNat 8 v :: littleEndian n (v / 256)

/-! ### Lists -/

/-- Round a quotient up. -/
def ceilDiv (x y : Nat) : Nat := (x + y - 1) / y

/-- Insert by a key before the first entry with a greater key. -/
def insertBy {α : Type} (key : α → Nat × Nat) (x : α) : List α → List α
  | [] => [x]
  | y :: rest =>
    if (key x).1 < (key y).1 ∨ ((key x).1 = (key y).1 ∧ (key x).2 < (key y).2) then x :: y :: rest
    else y :: insertBy key x rest

/-- Sort by a pair of keys, keeping the order of equal ones. -/
def sortBy {α : Type} (key : α → Nat × Nat) : List α → List α
  | [] => []
  | x :: rest => insertBy key x (sortBy key rest)

/-- The first element that meets a test, with the list without it. -/
def takeFirst {α : Type} (f : α → Bool) : List α → Option (α × List α)
  | [] => none
  | x :: rest => if f x then some (x, rest) else (takeFirst f rest).map fun r => (r.1, x :: r.2)

/-- Iterate a function on the state. -/
def iterate {α : Type} (f : α → α) : Nat → α → α
  | 0, x => x
  | n + 1, x => iterate f n (f x)

/-- Numbers from `n` on, `k` of them. -/
def countFrom (n : Nat) : Nat → List Nat
  | 0 => []
  | k + 1 => n :: countFrom (n + 1) k

end Sys2Proof.Machine
end

