-- ==== Sys2Proof/Machine/Geometry.lean ====
section
/-! DEFINITION. Chapter 1: the quantities derived from a geometry record, the calculation from band and offset to a
place on the disk, the system area, the draft and the 21 checks, and the check word (R125). -/

namespace Sys2Proof.Machine

/-! ### Derived quantities (R3 to R5, R10, R11) -/

/-- T×S(z), the offsets of a band (R4). -/
def bandSize (g : Geometry) (z : Zone) : Nat := g.tracks * z.blocks

/-- F(z), the footer size (R4). -/
def footerSize (g : Geometry) (z : Zone) : Nat := ceilDiv (bandSize g z) Config.entriesPerFooterBlock

/-- C(z), the data capacity of a band (R4). -/
def dataCapacity (g : Geometry) (z : Zone) : Nat := bandSize g z - footerSize g z

/-- Bands of a zone, Nb(z)×H (R3). -/
def zoneBands (g : Geometry) (z : Zone) : Nat := z.bands * g.heads

/-- The sum of a quantity over zones. -/
def sumZones (f : Zone → Nat) : List Zone → Nat
  | [] => 0
  | z :: zs => f z + sumZones f zs

/-- The total band count (R3). -/
def totalBands (g : Geometry) : Nat := sumZones (zoneBands g) g.zones

/-- The total data capacity of the disk (R5). -/
def totalCapacity (g : Geometry) : Nat := sumZones (fun z => zoneBands g z * dataCapacity g z) g.zones

/-- The greatest of a quantity over zones. -/
def maxZones (f : Zone → Nat) (zs : List Zone) : Nat := zs.foldl (fun m z => max m (f z)) 0

/-- The least of a quantity over zones, 0 without zones. -/
def minZones (f : Zone → Nat) : List Zone → Nat
  | [] => 0
  | z :: zs => zs.foldl (fun m y => min m (f y)) (f z)

/-- max C (R5). -/
def maxCapacity (g : Geometry) : Nat := maxZones (dataCapacity g) g.zones

/-- Cmin, the smallest C(z) (R109). -/
def minCapacity (g : Geometry) : Nat := minZones (dataCapacity g) g.zones

/-- Smax, the largest S(z) (R109). -/
def maxTrack (g : Geometry) : Nat := maxZones (fun z => z.blocks) g.zones

/-- S(1), the blocks of a system track (R10). -/
def systemTrack (g : Geometry) : Nat := (g.zones.head?.map fun z => z.blocks).getD 0

/-- SYSCAP (R10). -/
def systemCapacity (g : Geometry) : Nat := g.sysCyl * g.heads * systemTrack g

/-- Map blocks of a checkpoint image (R11, R126). -/
def mapBlocks (g : Geometry) : Nat := ceilDiv g.mapCap Config.extentsPerBlock

/-- Band table blocks of a checkpoint image (R11, R126). -/
def bandBlocks (g : Geometry) : Nat := ceilDiv (totalBands g) Config.bandsPerBlock

/-- I, the blocks of a checkpoint image (R126). -/
def imageBlocks (g : Geometry) : Nat := 1 + mapBlocks g + bandBlocks g

/-- SYSREQ (R11). -/
def systemRequired (g : Geometry) : Nat := 2 + 2 * imageBlocks g + Config.journalBlocks

/-- The first system block of an image slot (R126). -/
def imageBase (g : Geometry) : ImageSlot → Nat
  | .first => 2
  | .second => imageBlocks g + 2

/-- The first system block of the journal region (R126). -/
def journalBase (g : Geometry) : Nat := 2 * imageBlocks g + 2

/-- The last cylinder of the geometry (R14, check 21). -/
def lastCylinder (g : Geometry) : Nat :=
  match g.zones.getLast? with
  | none => 0
  | some z => z.cyl0 + z.bands * (g.tracks + g.guards) - 1

/-! ### From band and offset to a place on the disk (R6 to R8) -/

/-- The zone of a band: its number, its items and the band's position j in it (R6), given the number of the first zone
of the list and its base. -/
def findZone (heads : Nat) : List Zone → Nat → Nat → Nat → Option (Nat × Zone × Nat)
  | [], _, _, _ => none
  | z :: zs, number, base, band =>
    if band < base + z.bands * heads then some (number, z, band - base)
    else findZone heads zs (number + 1) (base + z.bands * heads) band

/-- The zone number, zone and position of a band (R3, R6). -/
def zoneOf (g : Geometry) (band : Nat) : Option (Nat × Zone × Nat) := findZone g.heads g.zones 1 0 band

/-- The result of the address calculation (R8). -/
structure DiskAddress where
  zone : Nat
  head : Nat
  cylinder : Nat
  track : Nat
  sector : Nat
deriving DecidableEq, Repr

/-- The physical address of an offset of a band (R6 to R8); none outside the geometry (R9). -/
def bandAddress (g : Geometry) (band offset : Nat) : Option DiskAddress :=
  match zoneOf g band with
  | none => none
  | some (number, z, j) =>
    if offset < bandSize g z then
      let t := offset / z.blocks
      let s := offset % z.blocks
      some { zone := number, head := j % g.heads, cylinder := z.cyl0 + j / g.heads * (g.tracks + g.guards) + t, track := t,
             sector := (s + t * z.skew) % z.blocks }
    else none

/-- The cylinder, head and sector of a system block (R10). -/
def systemAddress (g : Geometry) (i : Nat) : Nat × Nat × Nat :=
  let r := i / systemTrack g
  (r / g.heads, r % g.heads, i % systemTrack g)

/-- The blocks from system block `i` to the end of its system track (R10, R85). -/
def systemRemainder (g : Geometry) (i : Nat) : Nat := systemTrack g - i % systemTrack g

/-! ### The geometry of one band -/

/-- S(z), C(z), T×S(z) of a band. -/
structure BandShape where
  track : Nat
  capacity : Nat
  size : Nat
deriving DecidableEq, Repr

/-- The shape of a band under a record; zeros outside the geometry, which R9 says is never asked for. -/
def shapeIn (g : Geometry) (band : Nat) : BandShape :=
  match zoneOf g band with
  | none => ⟨0, 0, 0⟩
  | some (_, z, _) => ⟨z.blocks, dataCapacity g z, bandSize g z⟩

/-- The shape of a band under the record in force. -/
def State.shape (s : State) (band : Nat) : BandShape :=
  match s.geo.inForce with
  | none => ⟨0, 0, 0⟩
  | some g => shapeIn g band

/-! ### The draft (R13, R168) -/

/-- The value of a draft item, if it is present. -/
def draftGet : List DraftItem → Nat → Nat → Option Nat
  | [], _, _ => none
  | d :: rest, item, index => if d.item = item ∧ d.index = index then some d.value else draftGet rest item index

/-- The draft with one item set (R13), kept in ascending order of item and index. -/
def draftSet : List DraftItem → Nat → Nat → Nat → List DraftItem
  | [], item, index, v => [⟨item, index, v⟩]
  | d :: rest, item, index, v =>
    if d.item = item ∧ d.index = index then ⟨item, index, v⟩ :: rest
    else if d.item < item ∨ (d.item = item ∧ d.index < index) then d :: draftSet rest item index v
    else ⟨item, index, v⟩ :: d :: rest

/-- An item that is present and lies in a range. -/
def within (v : Option Nat) (lo hi : Nat) : Bool :=
  match v with
  | none => false
  | some x => decide (lo ≤ x) && decide (x ≤ hi)

/-- A test of every zone from 1 to the draft's Zones. -/
def everyZone (n : Nat) (f : Nat → Bool) : Bool := (countFrom 1 n).all f

/-- A draft value as a stream preference: 0 OUTER, 1 INNER (R168). -/
def preferenceOf (v : Nat) : Preference := if v = 1 then .inner else .outer

/-- The record the draft stands for, with defaults supplied (R2). It is used where the checks before have found the items
present. -/
def draftRecord (d : List DraftItem) : Geometry :=
  let item (n : Nat) : Nat := (draftGet d n 0).getD 0
  let zone (z : Nat) : Zone :=
    { blocks := (draftGet d 6 z).getD 0, skew := (draftGet d 7 z).getD 0, cyl0 := (draftGet d 8 z).getD 0,
      bands := (draftGet d 9 z).getD 0 }
  { heads := item 1, zones := (countFrom 1 (item 2)).map zone, tracks := item 3, guards := item 4, sysCyl := item 5,
    userBlocks := item 10, mapCap := item 11, slots := item 12, low := item 13, crit := item 14, minRun := item 15,
    gatherIdle := (draftGet d 16 0).getD Config.gatherIdleDefault,
    prefs := (countFrom 0 8).map fun i => preferenceOf ((draftGet d 17 i).getD 0) }

/-- Zones abut or leave cylinders between them (R14, check 14). -/
def zonesApart (g : Geometry) : List Zone → Bool
  | [] => true
  | [_] => true
  | x :: y :: rest => decide (x.cyl0 + x.bands * (g.tracks + g.guards) ≤ y.cyl0) && zonesApart g (y :: rest)

/-- Checks 1 to 20 of R14, in order, each with its number. A check that names an absent item fails. -/
def draftChecks (d : List DraftItem) : List (Nat × Bool) :=
  let n := (draftGet d 2 0).getD 0
  let g := draftRecord d
  [ (1, within (draftGet d 2 0) 1 32),
    (2, within (draftGet d 1 0) 1 16),
    (3, within (draftGet d 3 0) 16 128),
    (4, within (draftGet d 4 0) 1 2),
    (5, within (draftGet d 5 0) 8 4096),
    (6, everyZone n fun z => within (draftGet d 6 z) 128 1023),
    (7, everyZone n fun z => within (draftGet d 7 z) 0 ((draftGet d 6 z).getD 0 - 1)),
    (8, everyZone n fun z => within (draftGet d 9 z) 1 4294967295),
    (9, decide (totalBands g ≤ 131072)),
    (10, within (draftGet d 10 0) 1048576 4000000000),
    (11, within (draftGet d 11 0) 65536 16777216),
    (12, within (draftGet d 12 0) 4096 262144 && decide ((draftGet d 12 0).getD 0 % 8 = 0)),
    (13, within (draftGet d 8 1) ((draftGet d 5 0).getD 0) 4294967295),
    (14, (everyZone n fun z => (draftGet d 8 z).isSome) && zonesApart g g.zones),
    (15, within (draftGet d 14 0) 3 4096 && within (draftGet d 13 0) ((draftGet d 14 0).getD 0 + 1) 4096),
    (16, within (draftGet d 15 0) 1 1023),
    (17, within (some g.gatherIdle) 1 255),
    (18, (countFrom 0 8).all fun i => within (some ((draftGet d 17 i).getD 0)) 0 1),
    (19, decide (g.userBlocks + 16 * maxCapacity g ≤ totalCapacity g)),
    (20, decide (systemRequired g ≤ systemCapacity g)) ]

/-- The first failing check of a list. -/
def firstFailing : List (Nat × Bool) → Option Nat
  | [] => none
  | c :: rest => if c.2 then firstFailing rest else some c.1

/-- The first of checks 1 to 20 that fails (R14). -/
def failingCheck (d : List DraftItem) : Option Nat := firstFailing (draftChecks d)

/-- Check 21 (R14). -/
def check21 (g : Geometry) (cylinders : Nat) : Bool := decide (lastCylinder g < cylinders)

/-! ### The check word (R125) -/

/-- A stream preference as it enters the check word. -/
def preferenceWord : Preference → Nat
  | .outer => 0
  | .inner => 1

/-- The words of a record that the check word sums, in the order of R125. -/
def checkWords (g : Geometry) : List Nat :=
  [g.heads, g.zones.length, g.tracks, g.guards, g.sysCyl]
    ++ (g.zones.map fun z => [z.blocks, z.skew, z.cyl0, z.bands]).flatten
    ++ [g.userBlocks, g.mapCap, g.slots, g.low, g.crit, g.minRun, g.gatherIdle]
    ++ g.prefs.map preferenceWord

/-- The check word of a record: the sum of its words modulo 4,294,967,296 (R125). -/
def checkWordOf (g : Geometry) : Word32 := BitVec.ofNat 32 (checkWords g).sum

end Sys2Proof.Machine
end

