-- ==== Sys2Proof/Machine/Operands.lean ====
section
/-! DEFINITION. The fields of what a front end writes and reads: command and continuation records (R144), pieces,
the formats of the commands (R156), the item selector (R168), and the result layouts of section 9.6. -/

namespace Sys2Proof.Machine

/-! ### Records (R144) -/

/-- Bits `lo` to `lo + n - 1` of a word, as a number. -/
def field (w : Word64) (lo n : Nat) : Nat := (w.extractLsb' lo n).toNat

/-- The flags byte of a record: byte 8. -/
def recordFlags (r : RecordWords) : Byte := r.w1.extractLsb' 0 8

/-- The opcode: byte 9. -/
def recordOpcode (r : RecordWords) : Nat := field r.w1 8 8

/-- The stream byte: byte 10. -/
def recordStream (r : RecordWords) : Byte := r.w1.extractLsb' 16 8

/-- The piece count: byte 11. -/
def recordPieces (r : RecordWords) : Nat := field r.w1 24 8

/-- The count: bytes 12 to 15. -/
def recordCount (r : RecordWords) : BitVec 32 := r.w1.extractLsb' 32 32

/-- The pieces that stand in a command record: pieces 0 and 1, as far as the piece count goes. -/
def commandPieces (r : RecordWords) : List Word64 := [r.w3, r.w4].take (recordPieces r)

/-- The six pieces of a continuation record. -/
def continuationPieces (r : RecordWords) : List Word64 := [r.w2, r.w3, r.w4, r.w5, r.w6, r.w7]

/-- Bits of the flags byte (R144). -/
def ownBit (f : Byte) : Bool := f.getLsbD 0
def contBit (f : Byte) : Bool := f.getLsbD 1
def durableBit (f : Byte) : Bool := f.getLsbD 4
def forceBit (f : Byte) : Bool := f.getLsbD 5

/-- The flags byte at write-back: as read, with OWN and CONT clear, EOQ as given and TORN set for a torn command (R151). -/
def writeBackFlags (f : Byte) (eoq torn : Bool) : Byte :=
  (f &&& 0xF0#8) ||| (if eoq then 0x04#8 else 0x00#8) ||| (if torn then 0x08#8 else f &&& 0x08#8)

/-- A next address that names a record: a multiple of 64 (R146, R147, R152). -/
def aligned64 (a : Address) : Bool := decide (a.toNat % 64 = 0)

/-- The command a command record and its continuations make. -/
def commandOf (head : RecordWords) (pieces : List Word64) (last next : Address) : CommandRecord :=
  { flags := recordFlags head, stream := recordStream head, count := recordCount head, lbn := head.w2, pieces := pieces,
    last := last, next := next }

/-! ### Pieces (R144) -/

/-- The blocks of a piece: bits 11 to 0 hold the length less 1. -/
def pieceLength (w : Word64) : Nat := field w 0 12 + 1

/-- The address of a piece's first block: bits 63 to 12. -/
def pieceBase (w : Word64) : Nat := field w 12 52 * 4096

/-- The blocks of all pieces. -/
def piecesLength (ps : List Word64) : Nat := (ps.map pieceLength).sum

/-- The address of block `i` of a command, counted through the pieces in order (R158). -/
def blockAddress : List Word64 → Nat → Address
  | [], _ => 0
  | w :: ps, i => if i < pieceLength w then BitVec.ofNat 64 (pieceBase w + i * 4096) else blockAddress ps (i - pieceLength w)

/-! ### Command formats (R156, R168) -/

/-- A selector of CONFIG WRITE that names an item: its number and index (R168). -/
def selector (lbn : Word64) : Option (Nat × Nat) :=
  let item := field lbn 0 8
  let index := field lbn 8 8
  if field lbn 16 48 ≠ 0 then none
  else if 6 ≤ item ∧ item ≤ 9 then (if 1 ≤ index ∧ index ≤ 32 then some (item, index) else none)
  else if item = 17 then (if index ≤ 7 then some (item, index) else none)
  else if 1 ≤ item ∧ item ≤ 16 then (if index = 0 then some (item, index) else none)
  else none

/-- The format of a command (R156, test 6). `user` is U, which a TRIM's count may not exceed. -/
def formatOk (opcode user : Nat) (c : CommandRecord) : Bool :=
  let n := c.count.toNat
  let k := c.pieces.length
  match opcode with
  | 0 => true
  | 1 => decide (1 ≤ n ∧ n ≤ 4096 ∧ 1 ≤ k ∧ piecesLength c.pieces = n)
  | 2 => decide (1 ≤ n ∧ n ≤ 4096 ∧ 1 ≤ k ∧ piecesLength c.pieces = n ∧ c.stream.toNat ≤ 7)
  | 3 => decide (1 ≤ n ∧ n ≤ user ∧ k = 0)
  | 4 => decide (k = 0)
  | 5 => decide (n = 1 ∧ k = 0)
  | 6 => decide (1 ≤ n ∧ n ≤ 256 ∧ 1 ≤ k ∧ piecesLength c.pieces = ceilDiv n 128)
  | 7 => decide (k = 0)
  | 8 => decide (k = 0)
  | 9 => decide (k = 0) && (selector c.lbn).isSome
  | 10 => decide (k = 0)
  | _ => false

/-- The range of a command is exceeded (R156, test 8). -/
def rangeExceeded (opcode user bands : Nat) (c : CommandRecord) : Bool :=
  match opcode with
  | 1 => decide (user < c.lbn.toNat + c.count.toNat)
  | 2 => decide (user < c.lbn.toNat + c.count.toNat)
  | 3 => decide (user < c.lbn.toNat + c.count.toNat)
  | 5 => decide (user ≤ c.lbn.toNat)
  | 6 => decide (bands < c.lbn.toNat + c.count.toNat)
  | _ => false

/-! ### Results (section 9.6) -/

/-- The status code of a status (section 9.1). -/
def statusCode : Status → Nat
  | .done => 0
  | .range => 1
  | .badCommand => 2
  | .streamInvalid => 3
  | .mediaError => 4
  | .mapExhausted => 5
  | .noSpace => 6
  | .notReady => 7
  | .notConfigured => 8
  | .refusedState => 9
  | .geometryInvalid => 10
  | .torn => 11
  | .partFault => 12

/-- A completion with no result words. -/
def completed (st : Status) (blocks : Nat) : Completion := { status := st, blocks := blocks, result0 := 0, result1 := 0 }

/-- A completion with result words. -/
def completedWith (st : Status) (blocks r0 r1 : Nat) : Completion :=
  { status := st, blocks := blocks, result0 := BitVec.ofNat 64 r0, result1 := BitVec.ofNat 64 r1 }

/-- Bytes 40 to 47 of a record at write-back: status code, three zero bytes, blocks done (R144). -/
def statusWordOf (c : Completion) : Word64 := BitVec.ofNat 64 (statusCode c.status + c.blocks % 4294967296 * 4294967296)

/-- The code of a band state in a BAND REPORT entry. -/
def bandStateCode : BandState → Nat
  | .empty => 0
  | .opened => 1
  | .full => 2
  | .cleaning => 3
  | .retired => 4

/-- The 32 bytes of a BAND REPORT entry (R39, section 9.6). -/
def bandEntryBytes (band : Nat) (r : BandRecord) : List Byte :=
  littleEndian 4 band
    ++ [BitVec.ofNat 8 (bandStateCode r.state),
        BitVec.ofNat 8 ((if r.footer then 1 else 0) + (if r.closeNumber.isSome then 2 else 0)),
        BitVec.ofNat 8 r.faults, 0]
    ++ littleEndian 4 r.wp ++ littleEndian 4 r.done ++ littleEndian 4 r.live
    ++ littleEndian 4 (r.closeNumber.getD 0).toNat ++ littleEndian 8 0

/-- A block of BAND REPORT entries: entry k at byte 32 k, the bytes after the last entry 0 (R165). -/
def bandEntriesBlock : Nat → List (Nat × BandRecord) → Block
  | _, [] => zeroBlock
  | k, e :: rest => blockWriteAll (bandEntriesBlock (k + 1) rest) (32 * k) (bandEntryBytes e.1 e.2)

/-- The LOCATE result words for a mapped block (R164, section 9.6). -/
def locateMapped (band offset : Nat) (a : DiskAddress) : Nat × Nat :=
  (2 + a.zone * 2 ^ 8 + a.head * 2 ^ 16 + band * 2 ^ 20 + offset * 2 ^ 40,
   a.cylinder + a.sector * 2 ^ 32 + a.track * 2 ^ 48)

end Sys2Proof.Machine
end

