-- ==== Sys2Proof/Machine/Flags.lean ====
section
/-! DEFINITION. The latched flags (R155), the words a port presents (R143) and the notice line (R183). -/

namespace Sys2Proof.Machine

/-! ### Flags and the notice line -/

/-- The six latched flags of a port in STATUS order: LINK FAULT, HEAD WHILE RUNNING, CHAIN FORMAT, WRITE HOLD, PART FAULT,
TAKEN OVER (R143). WRITE HOLD mirrors the part's latch (R100, R155). -/
def flagBits (f : PortFlags) (hold : Bool) : BitVec 6 :=
  BitVec.ofNat 6 (f.linkFault.toNat + f.headWhileRunning.toNat * 2 + f.chainFormat.toNat * 4 + hold.toNat * 8
    + f.partFault.toNat * 16 + f.takenOver.toNat * 32)

/-- The latched flags of a port. -/
def State.flagBits (s : State) (p : Port) : BitVec 6 := Machine.flagBits (s.port p).flags s.seq.writeHold

/-- The notice line of a port (R183). DESIGN CHOICE, log entry 28. -/
def State.noticeLine (s : State) (p : Port) : Bool :=
  ((s.notice p).released && decide ((s.port p).ackMark ≠ (s.port p).doneMark))
    || decide (s.flagBits p &&& (s.notice p).mask ≠ 0)

/-- The flags that a CLEAR FLAGS with a clear mask leaves (R155). Bit 3, WRITE HOLD, is disregarded. -/
def clearFlagBits (f : PortFlags) (mask : BitVec 6) : PortFlags :=
  { linkFault := f.linkFault && !mask.getLsbD 0
    headWhileRunning := f.headWhileRunning && !mask.getLsbD 1
    chainFormat := f.chainFormat && !mask.getLsbD 2
    partFault := f.partFault && !mask.getLsbD 4
    takenOver := f.takenOver && !mask.getLsbD 5 }

/-- Latch LINK FAULT. -/
def latchLinkFault (e : PortEngine) : PortEngine := { e with flags := { e.flags with linkFault := true } }

/-- Latch HEAD WHILE RUNNING. -/
def latchHeadWhileRunning (e : PortEngine) : PortEngine := { e with flags := { e.flags with headWhileRunning := true } }

/-- Latch CHAIN FORMAT. -/
def latchChainFormat (e : PortEngine) : PortEngine := { e with flags := { e.flags with chainFormat := true } }

/-- Latch PART FAULT. -/
def latchPartFault (e : PortEngine) : PortEngine := { e with flags := { e.flags with partFault := true } }

/-- Latch TAKEN OVER. -/
def latchTakenOver (e : PortEngine) : PortEngine := { e with flags := { e.flags with takenOver := true } }

/-! ### The port words (R143) -/

/-- The code of a process state in STATUS. -/
def processCode : Process → Nat
  | .stopped => 0
  | .running => 1
  | .suspendedEnd => 2
  | .suspendedNotOwned => 3
  | .halted => 4

/-- The code of a halt cause in STATUS. -/
def causeCode : HaltCause → Nat
  | .none => 0
  | .linkFault => 1
  | .linkLost => 2
  | .chainFormat => 3

/-- The code of a part state in STATUS. -/
def partCode : PartState → Nat
  | .loading => 0
  | .unconfigured => 1
  | .rebuilding => 2
  | .ready => 3
  | .faulted => 4

/-- The code of a cleaner mode in STATUS. -/
def modeCode : CleanerMode → Nat
  | .idle => 0
  | .background => 1
  | .urgent => 2

/-- The port holds a takeover: it owns the other port's group (R172). -/
def State.takeoverHeld (s : State) (p : Port) : Bool := decide (s.staging.owners.get (otherPort p) = p)

/-- The in-flight count of STATUS (R143): the commands of the in-flight list. -/
def PortEngine.inFlightCount (e : PortEngine) : Nat := e.list.length

/-- The STATUS word (R143). DESIGN CHOICE, log entry 28. -/
def State.statusWord (s : State) (p : Port) : Word64 :=
  let e := s.port p
  BitVec.ofNat 64 (processCode e.process + e.stopRequested.toNat * 2 ^ 3 + causeCode e.cause * 2 ^ 4
    + e.teardown.toNat * 2 ^ 6 + partCode s.recovery.part * 2 ^ 8 + modeCode s.cleaner.mode * 2 ^ 12
    + (s.takeoverHeld p).toNat * 2 ^ 14 + (s.flagBits p).toNat * 2 ^ 16 + e.inFlightCount * 2 ^ 24)

/-- The SETTINGS word as it reads back: staged pacing, autopoll time and mask (R143, R180). -/
def State.settingsWord (s : State) (p : Port) : Word64 :=
  let n := s.notice p
  BitVec.ofNat 64 (n.stagedCount + n.stagedTime * 2 ^ 8 + (s.port p).autopoll * 2 ^ 16 + n.mask.toNat * 2 ^ 24)

/-- What a 64-bit read at a byte offset of the port's window answers; none is a target abort (R143). -/
def State.readPortWord (s : State) (p : Port) (offset : Nat) : Option Word64 :=
  match offset with
  | 0 => some 0
  | 8 => some 0
  | 16 => some (s.port p).ackMark
  | 24 => some (s.port p).doneMark
  | 32 => some 0
  | 40 => some (s.settingsWord p)
  | 48 => some (s.statusWord p)
  | _ => none

/-- The DONE MARK value of a record address and a write-back count (R143, R151). -/
def doneMarkOf (record : Address) (count : BitVec 6) : Word64 := (record &&& ~~~0x3F#64) ||| count.setWidth 64

end Sys2Proof.Machine
end

