-- ==== Sys2Proof/Machine/Notice.lean ====
section
/-! DEFINITION. Chapter 11: the Notice Units. The notice line itself is `State.noticeLine`. -/

namespace Sys2Proof.Machine

/-- The released flag is set: the timer stops, and both machines keep their states (R181). -/
def releaseNotice (n : NoticeUnit) : NoticeUnit := { n with released := true, timer := false }

/-- Both machines are WAITING. -/
def noticeWaiting (n : NoticeUnit) : Bool := !n.counting && !n.delay

/-- The first write-back of a new pace (R181). -/
def startPace (n : NoticeUnit) : NoticeUnit :=
  let n1 : NoticeUnit :=
    { n with counting := decide (0 < n.pacingCount), tally := if 0 < n.pacingCount then 1 else n.tally
             delay := decide (0 < n.pacingTime), timer := decide (0 < n.pacingTime) }
  if (n.pacingCount = 0 ∧ n.pacingTime = 0) ∨ n.pacingCount = 1 then releaseNotice n1 else n1

/-- A write-back while a pace runs: a COUNTING machine raises its tally, and releases when it reaches the count in force
(R181). -/
def continuePace (n : NoticeUnit) : NoticeUnit :=
  if n.counting then
    let n1 : NoticeUnit := { n with tally := n.tally + 1 }
    if n.tally + 1 = n.pacingCount then releaseNotice n1 else n1
  else n

/-- A write-back event reaches the Notice Unit (R181). -/
def noticeWriteBack (n : NoticeUnit) : NoticeUnit :=
  if n.released then n else if noticeWaiting n then startPace n else continuePace n

/-- The DELAY timer expires (R181). -/
def noticeTimerExpiry (n : NoticeUnit) : NoticeUnit := if n.timer then releaseNotice n else n

/-- An equal ACK MARK: the pace ends, and the staged pacing comes into force (R182, R184). -/
def endPace (n : NoticeUnit) : NoticeUnit :=
  { n with counting := false, tally := 0, delay := false, timer := false, released := false
           pacingCount := n.stagedCount, pacingTime := n.stagedTime }

/-- A write of ACK MARK, compared with DONE MARK (R182). -/
def noticeAck (n : NoticeUnit) (doneMark value : Word64) : NoticeUnit := if value = doneMark then endPace n else n

/-- A write of SETTINGS: the mask at once, the pacing staged, and in force at once while no pace runs (R184). -/
def noticeSettings (n : NoticeUnit) (count time : Nat) (mask : BitVec 6) : NoticeUnit :=
  let n1 : NoticeUnit := { n with mask := mask, stagedCount := count, stagedTime := time }
  if !n.released && noticeWaiting n then { n1 with pacingCount := count, pacingTime := time } else n1

end Sys2Proof.Machine
end

