-- ==== Sys2Proof/Machine/Bands.lean ====
section
/-! DEFINITION. Chapter 2: the band table, the EMPTY count, read references, emptying, the open wait list and the grant. -/

namespace Sys2Proof.Machine

/-- The values of an EMPTY record, which a grant finds (R19, R29). -/
def emptyBand : BandRecord :=
  { state := .empty, wp := 0, done := 0, live := 0, owner := none, closeNumber := none, footer := false, faults := 0,
    refs := 0, suspect := none }

/-- The record of a band. -/
def State.band (s : State) (b : Nat) : Option BandRecord := s.bands.records[b]?

/-- A FULL band with something live and something dead in it (R109, R111). -/
def reclaimable (capacity : Nat) (r : BandRecord) : Bool :=
  decide (r.state = .full) && decide (1 ≤ r.live) && decide (r.live < capacity)

/-- The EMPTY count after a record changes from one state to another (R20). -/
def countEmpty (count : Nat) (old new : BandState) : Nat :=
  if old = .empty then (if new = .empty then count else count - 1) else if new = .empty then count + 1 else count

/-- Put a band record in place. The EMPTY count follows (R20), and a band that becomes reclaimable is reported to the
Cleaner (R111). A band outside the table has no record to change. -/
def State.putBand (s : State) (b : Nat) (r : BandRecord) : State :=
  match s.bands.records[b]? with
  | none => s
  | some old =>
    let capacity := (s.shape b).capacity
    let s1 : State :=
      { s with bands := { s.bands with records := s.bands.records.set b r
                                       emptyCount := countEmpty s.bands.emptyCount old.state r.state } }
    s1.modCleaner fun c => { c with rescan := c.rescan || (reclaimable capacity r && !reclaimable capacity old) }

/-- Change a band record. -/
def State.modBand (s : State) (b : Nat) (f : BandRecord → BandRecord) : State :=
  match s.band b with
  | none => s
  | some r => s.putBand b (f r)

/-- Make a band EMPTY: the record returns to the values a grant finds (R29). -/
def State.emptyTheBand (s : State) (b : Nat) : State := s.modBand b fun _ => emptyBand

/-- The tests made when a band enters FULL, when its live count has fallen and when a read reference is dropped: a FULL
band with live count and read references 0 becomes EMPTY (R29), and a RETIRED band with live count 0 leaves the Cleaner's
retired list (R37, R108). -/
def State.testBand (s : State) (b : Nat) : State :=
  match s.band b with
  | none => s
  | some r =>
    match r.state with
    | .full => if r.live = 0 ∧ r.refs = 0 then s.emptyTheBand b else s
    | .retired =>
      if r.live = 0 then s.modCleaner fun c => { c with retired := c.retired.filter fun e => e.1 ≠ b } else s
    | .empty => s
    | .opened => s
    | .cleaning => s

/-- Take a read reference (R33). -/
def State.addRef (s : State) (b : Nat) : State := s.modBand b fun r => { r with refs := r.refs + 1 }

/-- A lowering of the live count or a dropped reference of the band whose release is held: the release is to be tested
(R35). -/
def State.retestRelease (s : State) (b : Nat) : State :=
  { s with bands := { s.bands with retest := s.bands.retest || decide (s.bands.release = some b) } }

/-- Drop a read reference and test the band (R33, R29, R35). -/
def State.dropRef (s : State) (b : Nat) : State :=
  ((s.modBand b fun r => { r with refs := r.refs - 1 }).retestRelease b).testBand b

/-- Raise live counts (R51). -/
def State.raiseLive (s : State) : List (Nat × Nat) → State
  | [] => s
  | (b, n) :: rest => (s.modBand b fun r => { r with live := r.live + n }).raiseLive rest

/-- Lower live counts (R51, R35). -/
def State.lowerLive (s : State) : List (Nat × Nat) → State
  | [] => s
  | (b, n) :: rest => ((s.modBand b fun r => { r with live := r.live - n }).retestRelease b).lowerLive rest

/-- The emptying tests after a whole change (R51). -/
def State.testBands (s : State) : List (Nat × Nat) → State
  | [] => s
  | (b, _) :: rest => (s.testBand b).testBands rest

/-- Create one EMPTY record for each band when a geometry record comes into force (R19). -/
def State.createBands (s : State) (g : Geometry) : State :=
  { s with bands := { records := List.replicate (totalBands g) emptyBand, emptyCount := totalBands g, closeCounter := 0,
                      openWait := [], release := none, retest := false } }

/-! ### Opening bands (R20 to R23) -/

/-- A placer's request for a band joins the open wait list; a second one changes nothing (R21). -/
def State.askBand (s : State) (st : Stream) : State :=
  if st ∈ s.bands.openWait then s else { s with bands := { s.bands with openWait := s.bands.openWait ++ [st] } }

/-- A placer withdraws its request (R21, R71). -/
def State.withdrawBand (s : State) (st : Stream) : State :=
  { s with bands := { s.bands with openWait := s.bands.openWait.filter fun x => x ≠ st } }

/-- The stream that receives the next band (R21): the cleaner stream at an EMPTY count of 1 or more, else the oldest port
stream at 3 or more. -/
def State.nextGrant (s : State) : Option Stream :=
  if .cleaner ∈ s.bands.openWait ∧ 1 ≤ s.bands.emptyCount then some .cleaner
  else if Config.portBandFloor ≤ s.bands.emptyCount then s.bands.openWait.find? fun x => decide (x ≠ .cleaner)
  else none

/-- The open wait list holds a port stream that the grants of R21 leave waiting. A stream that is about to be granted a
band in the same moment does not count as waiting (R21, R106). DEDUCED, log entry 11. -/
def State.portWaiting (s : State) : Bool :=
  let ports := (s.bands.openWait.filter fun x => decide (x ≠ .cleaner)).length
  let free := if .cleaner ∈ s.bands.openWait then s.bands.emptyCount - 1 else s.bands.emptyCount
  decide (free - (Config.portBandFloor - 1) < ports)

/-- The lowest-numbered EMPTY band from band `b` on. -/
def lowestEmpty : List BandRecord → Nat → Option Nat
  | [], _ => none
  | r :: rest, b => if r.state = .empty then some b else lowestEmpty rest (b + 1)

/-- The highest-numbered EMPTY band. -/
def highestEmpty : List BandRecord → Nat → Option Nat
  | [], _ => none
  | r :: rest, b =>
    match highestEmpty rest (b + 1) with
    | some c => some c
    | none => if r.state = .empty then some b else none

/-- A stream's preference in the record in force (R22). -/
def State.preference (s : State) (st : Stream) : Preference :=
  match s.geo.inForce with
  | none => .outer
  | some g => g.prefs[streamIndex st]?.getD .outer

/-- The band a grant chooses (R22): the lowest-numbered EMPTY band for a port stream that prefers OUTER, the
highest-numbered for one that prefers INNER and for the cleaner stream. -/
def State.grantChoice (s : State) (st : Stream) : Option Nat :=
  if st ≠ .cleaner ∧ s.preference st = .outer then lowestEmpty s.bands.records 0 else highestEmpty s.bands.records 0

/-- The record of a band just granted (R23). -/
def grantedBand (st : Stream) : BandRecord := { emptyBand with state := .opened, owner := some st }

/-- Make the next grant of R21: the stream leaves the list, its band becomes OPEN (R23), and its placer has the band with
an empty summary (R71, R75). -/
def State.grantBand (s : State) : State :=
  match s.nextGrant with
  | none => s
  | some st =>
    match s.grantChoice st with
    | none => s
    | some b =>
      ((s.withdrawBand st).putBand b (grantedBand st)).modPlacer st fun x =>
        { x with band := some b, summary := [], bandWait := false }

end Sys2Proof.Machine
end

