-- ==== Sys2Proof/Machine/MapUnit.lean ====
section
/-! DEFINITION. Chapter 3: the extent map, removal and insertion, lookups, reservations and the pending-apply list. -/

namespace Sys2Proof.Machine

/-! ### Removing and inserting (R45, R46) -/

/-- An extent covers an LBN (R41). -/
def covers (x : Nat) (e : Extent) : Bool := decide (e.first ≤ x) && decide (x < e.first + e.length)

/-- What is left of one record when the LBNs `p` to `q` are removed (R45). -/
def removeFromExtent (p q : Nat) (e : Extent) : List Extent :=
  if e.first + e.length ≤ p ∨ q < e.first then [e]
  else
    (if e.first < p then [{ e with length := p - e.first }] else [])
      ++ (if q + 1 < e.first + e.length then
            [{ e with first := q + 1, length := e.first + e.length - (q + 1), offset := e.offset + (q + 1 - e.first) }]
          else [])

/-- The map with the LBNs `p` to `q` removed (R45). -/
def removeRange (p q : Nat) : List Extent → List Extent
  | [] => []
  | e :: rest => removeFromExtent p q e ++ removeRange p q rest

/-- How many LBNs of `p` to `q` an extent covers. -/
def overlap (p q : Nat) (e : Extent) : Nat := min (q + 1) (e.first + e.length) - max p e.first

/-- The bands that lose LBNs when `p` to `q` are removed, with how many (R45, R51). -/
def removedCounts (p q : Nat) : List Extent → List (Nat × Nat)
  | [] => []
  | e :: rest => if overlap p q e = 0 then removedCounts p q rest else (e.band, overlap p q e) :: removedCounts p q rest

/-- One record continues another in LBN, band and offset, and both fit into one record (R46). -/
def joins (x y : Extent) : Bool :=
  decide (x.first + x.length = y.first) && decide (x.band = y.band) && decide (x.offset + x.length = y.offset)
    && decide (x.length + y.length ≤ Config.extentLimit)

/-- Two records that join, as one. -/
def joined (x y : Extent) : Extent := { x with length := x.length + y.length }

/-- Put a piece, already joined to its left neighbour or not, before the records that follow it, joining the right
neighbour where R46 says so. -/
def insertBefore (piece : Extent) : List Extent → List Extent
  | [] => [piece]
  | r :: rest => if joins piece r then joined piece r :: rest else piece :: r :: rest

/-- The map with a piece inserted (R46). -/
def insertPiece (piece : Extent) : List Extent → List Extent
  | [] => [piece]
  | e :: rest =>
    if piece.first < e.first then insertBefore piece (e :: rest)
    else if joins e piece then insertBefore (joined e piece) rest
    else e :: insertPiece piece rest

/-- One change of the map. -/
def applyChange (t : List Extent) : MapChange → List Extent
  | .remove p q => removeRange p q t
  | .insert e => insertPiece e t

/-- Changes of the map in order. -/
def applyChanges (t : List Extent) : List MapChange → List Extent
  | [] => t
  | c :: rest => applyChanges (applyChange t c) rest

/-- The entries of the pending-apply list in order (R41, R60). -/
def applyEntries (t : List Extent) : List (List MapChange) → List Extent
  | [] => t
  | c :: rest => applyEntries (applyChanges t c) rest

/-- The bands that changes take LBNs from, with how many (R51). -/
def changesLower (t : List Extent) : List MapChange → List (Nat × Nat)
  | [] => []
  | .remove p q :: rest => removedCounts p q t ++ changesLower (removeRange p q t) rest
  | .insert e :: rest => changesLower (insertPiece e t) rest

/-- The bands that changes bring LBNs to, with how many (R51). -/
def changesRaise : List MapChange → List (Nat × Nat)
  | [] => []
  | .remove _ _ :: rest => changesRaise rest
  | .insert e :: rest => (e.band, e.length) :: changesRaise rest

/-- The map as R41 defines it: the table with the pending entries applied over it. -/
def MapUnit.current (m : MapUnit) : List Extent := applyEntries m.table m.pendingApply

/-! ### Lookups (R42, R44) -/

/-- The answer of a lookup: the band, the offset and the number of further LBNs of the same record. None is UNMAPPED. -/
def lookupIn (t : List Extent) (x : Nat) : Option (Nat × Nat × Nat) :=
  (t.find? (covers x)).map fun e => (e.band, e.offset + (x - e.first), e.first + e.length - 1 - x)

/-- A lookup (R42). -/
def State.lookup (s : State) (x : Nat) : Option (Nat × Nat × Nat) := lookupIn s.map.current x

/-- The map maps `x` to exactly a band and offset. -/
def mapsTo (t : List Extent) (x band offset : Nat) : Bool :=
  match lookupIn t x with
  | none => false
  | some (b, o, _) => decide (b = band) && decide (o = offset)

/-- The live check (R44): LIVE is true. -/
def State.liveCheck (s : State) (x band offset : Nat) : Bool := mapsTo s.map.current x band offset

/-! ### Records and reservations (R52 to R55) -/

/-- MAPCAP of the record in force. -/
def State.mapCap (s : State) : Nat := (s.geo.inForce.map fun g => g.mapCap).getD 0

/-- The free record count of a map (R52). It is 0 where a rebuild has left more records than MAPCAP. DESIGN CHOICE, log entry
17. -/
def freeRecords (mapCap : Nat) (t : List Extent) : Nat := mapCap - t.length

/-- The available count (R52). -/
def MapUnit.available (m : MapUnit) : Nat := m.freeCount - m.reserved

/-- Raise the reserved count. -/
def State.reserve (s : State) (n : Nat) : State := { s with map := { s.map with reserved := s.map.reserved + n } }

/-- Release a reservation whole (R52). -/
def State.unreserve (s : State) (n : Nat) : State := { s with map := { s.map with reserved := s.map.reserved - n } }

/-- Take a request off the record wait list. -/
def State.dropRecordRequest (s : State) (r : RecordRequest) : State :=
  { s with map := { s.map with recordWait := s.map.recordWait.filter fun x => x ≠ r } }

/-- Put a request on the record wait list, once. -/
def State.addRecordRequest (s : State) (r : RecordRequest) : State :=
  if r ∈ s.map.recordWait then s else { s with map := { s.map with recordWait := s.map.recordWait ++ [r] } }

/-- The entry places of the pending-apply list that are held or promised (R58). -/
def MapUnit.entryPlaces (m : MapUnit) : Nat := m.pendingApply.length + m.promised

/-- An entry place can be claimed, or none is needed (R58). A request that once found none waits till the flag is cleared. -/
def MapUnit.entryFree (m : MapUnit) (r : RecordRequest) : Bool :=
  !m.writePhase || (decide (m.entryPlaces < Config.pendingLimit) && decide (r ∉ m.phaseWait))

/-- A request that finds no entry place waits till the write-phase flag is cleared (R58). -/
def State.joinPhaseWait (s : State) (r : RecordRequest) : State :=
  if r ∈ s.map.phaseWait then s else { s with map := { s.map with phaseWait := s.map.phaseWait ++ [r] } }

/-- A request no longer waits for the write-phase flag. -/
def State.leavePhaseWait (s : State) (r : RecordRequest) : State :=
  { s with map := { s.map with phaseWait := s.map.phaseWait.filter fun x => x ≠ r } }

/-- Claim an entry place where the write-phase flag is set (R58). -/
def State.claimEntry (s : State) : State :=
  if s.map.writePhase then { s with map := { s.map with promised := s.map.promised + 1 } } else s

/-- Give a claimed entry place back (R58). -/
def State.unclaimEntry (s : State) (claimed : Bool) : State :=
  if claimed then { s with map := { s.map with promised := s.map.promised - 1 } } else s

/-! ### Changing the map (R47, R51, R59) -/

/-- The Map Unit with changes made: to the table, or as one entry of the pending-apply list while the write-phase flag is
set (R59). The free record count follows the records of the map (R52). -/
def MapUnit.change (m : MapUnit) (mapCap : Nat) (cs : List MapChange) : MapUnit :=
  let new := applyChanges m.current cs
  let free := freeRecords mapCap new
  if m.writePhase then { m with pendingApply := m.pendingApply ++ [cs], freeCount := free }
  else { m with table := new, freeCount := free }

/-- Make changes to the map, move the live counts as one change per band, and then make the emptying tests (R51). -/
def State.changeMap (s : State) (cs : List MapChange) : State :=
  let lower := changesLower s.map.current cs
  (({ s with map := s.map.change s.mapCap cs }.raiseLive (changesRaise cs)).lowerLive lower).testBands lower

/-- At a checkpoint's finish the entries are applied to the table, the list is emptied and the flag is cleared (R60), which
ends the waits for an entry place (R58). -/
def State.finishWritePhase (s : State) : State :=
  { s with map := { s.map with table := s.map.current, pendingApply := [], promised := 0, writePhase := false,
                               phaseWait := [] } }

/-- A number can be taken from the run counter (R57). -/
def MapUnit.runLeft (m : MapUnit) : Bool := decide (m.runCounter < Config.runLimit)

/-- Take the next number from the run counter (R57). -/
def State.takeRun (s : State) : State := { s with map := { s.map with runCounter := s.map.runCounter + 1 } }

end Sys2Proof.Machine
end

