-- ==== Sys2Proof/Machine/MediaQueue.lean ====
section
/-! DEFINITION. Sections 5.1 and 5.2: the media queue, the entry wait list, and the arbitration. -/

namespace Sys2Proof.Machine

/-! ### Entering (R86) -/

/-- The operations the queue holds, the one in flight counted (R86). The place of a run aborted in POSITIONING is free at the
answer to its SEEK, when the sequencer returns to IDLE (R94, R99). DESIGN CHOICE, log entry 14. -/
def State.queueCount (s : State) : Nat := s.media.queue.length + (if s.seq.current.isSome then 1 else 0)

/-- The queue has a place that no older waiter of the entry wait list is due (R86). -/
def State.queueRoom (s : State) : Bool := decide (s.queueCount + s.media.entryWait.length < Config.queueLimit)

/-- An operation enters the queue, or joins the entry wait list while no place is free (R86). It gets its identity, and at
its entry its arrival time (R85). -/
def State.submit (s : State) (op : MediaOp) : State :=
  let n := s.media.stamp
  if s.queueRoom then
    { s with media := { s.media with queue := s.media.queue ++ [{ op with id := n, arrival := n, aged := false }], stamp := n + 1 } }
  else
    { s with media := { s.media with entryWait := s.media.entryWait ++ [.op { op with id := n }], stamp := n + 1 } }

/-- A waiting operation enters the queue (R86). -/
def State.enterWaiting (s : State) (op : MediaOp) : State :=
  let n := s.media.stamp
  { s with media := { s.media with queue := s.media.queue ++ [{ op with arrival := n, aged := false }], stamp := n + 1 } }

/-- The run that a waiter of a stream's placer waits to build. -/
def waitingRun (st : Stream) : Waiter → Option WaitingRun
  | .op _ => none
  | .placer x run => if x = st then some run else none

/-- A placer joins the entry wait list for the run it would build, once (R86). -/
def State.waitEntry (s : State) (st : Stream) (run : WaitingRun) : State :=
  if s.media.entryWait.any fun w => (waitingRun st w).isSome then s
  else { s with media := { s.media with entryWait := s.media.entryWait ++ [.placer st run] } }

/-- A placer's wait for entry is withdrawn (R86). -/
def State.unwaitEntry (s : State) (st : Stream) : State :=
  { s with media := { s.media with entryWait := s.media.entryWait.filter fun w => (waitingRun st w).isNone } }

/-- A placer's wait for entry is withdrawn where it waits for another run than the one given: its run has changed (R86). -/
def State.unwaitChanged (s : State) (st : Stream) (run : Option WaitingRun) : State :=
  { s with media := { s.media with
      entryWait := s.media.entryWait.filter fun w => (waitingRun st w).isNone || decide (waitingRun st w = run) } }

/-- An operation with nothing but a kind, a place, a count and an origin. -/
def plainOp (kind : OpKind) (place : OpPlace) (count : Nat) (origin : OpOrigin) : MediaOp :=
  { id := 0, kind := kind, pad := false, place := place, count := count, run := 0, origin := origin, slots := [],
    entries := [], system := [], arrival := 0, aged := false, command := 0, blocks := [], scan := false, counted := false,
    task := .none }

/-- A SYSTEM READ of the Recovery Unit. -/
def systemReadOp (task : RecoveryTask) (index count : Nat) : MediaOp :=
  { plainOp .systemRead (.system index) count .recovery with task := task }

/-- A SYSTEM WRITE of the Recovery Unit. -/
def systemWriteOp (task : RecoveryTask) (index : Nat) (blocks : List SysBlock) : MediaOp :=
  { plainOp .systemWrite (.system index) blocks.length .recovery with task := task, system := blocks }

/-- A READ RUN of the Recovery Unit (R85, section 7.5). -/
def rebuildReadOp (band first count : Nat) : MediaOp :=
  { plainOp .readRun (.band band first) count .recovery with task := .rebuildRead }

/-! ### Classes and eligibility (R88) -/

/-- A write-class operation (R88). -/
def writeClass (op : MediaOp) : Bool :=
  match op.kind with
  | .writeRun => true
  | .footerWrite => true
  | .systemWrite => true
  | .readRun => false
  | .verifyRun => false
  | .systemRead => false

/-- The class of an operation (R88). -/
def opClass (mode : CleanerMode) (op : MediaOp) : Nat :=
  if op.aged then 1
  else
    match op.kind with
    | .verifyRun => 2
    | .systemRead => 2
    | .systemWrite => 2
    | .writeRun => 4
    | .footerWrite => 4
    | .readRun =>
      match op.origin with
      | .recovery => 2
      | .port _ => 3
      | .stream _ => 3
      | .cleaner => if mode = .urgent then 3 else 5

/-- An operation is eligible for a grant (R88). -/
def State.eligible (s : State) (op : MediaOp) : Bool :=
  !writeClass op || (decide (s.seq.shock = .clear) && !s.seq.writeHold)

/-- The oldest by arrival time of the operations that meet a test (R89). -/
def oldest (f : MediaOp → Bool) : List MediaOp → Option MediaOp
  | [] => none
  | x :: rest =>
    match oldest f rest with
    | none => if f x then some x else none
    | some y => if f x ∧ x.arrival ≤ y.arrival then some x else some y

/-- The oldest eligible operation of a class. -/
def State.oldestOfClass (s : State) (n : Nat) : Option MediaOp :=
  oldest (fun op => s.eligible op && decide (opClass s.cleaner.mode op = n)) s.media.queue

/-! ### Turns (R90) -/

/-- The origin that a class 3 turn names. -/
def turn3Origin : Turn3 → OpOrigin
  | .portA => .port .a
  | .portB => .port .b
  | .cleaner => .cleaner

/-- The class 3 turn after one. -/
def turn3Next : Turn3 → Turn3
  | .portA => .portB
  | .portB => .cleaner
  | .cleaner => .portA

/-- The class 3 turn after a grant: the Cleaner takes part only in URGENT mode. -/
def turn3After (urgent : Bool) (t : Turn3) : Turn3 :=
  match turn3Next t with
  | .cleaner => if urgent then .cleaner else .portA
  | u => u

/-- The oldest eligible class 3 operation of an origin. -/
def State.oldestOf3 (s : State) (t : Turn3) : Option MediaOp :=
  oldest (fun op => s.eligible op && decide (opClass s.cleaner.mode op = 3) && decide (op.origin = turn3Origin t)) s.media.queue

/-- The class 3 choice, counted from a turn, with the turn it was made at (R90). -/
def State.choice3 (s : State) : Nat → Turn3 → Option (MediaOp × Turn3)
  | 0, _ => none
  | n + 1, t =>
    match s.oldestOf3 t with
    | some op => some (op, t)
    | none => s.choice3 n (turn3Next t)

/-- The stream after one in the class 4 turn (R90). -/
def streamNext : Stream → Stream
  | .a0 => .a1
  | .a1 => .a2
  | .a2 => .a3
  | .a3 => .b0
  | .b0 => .b1
  | .b1 => .b2
  | .b2 => .b3
  | .b3 => .cleaner
  | .cleaner => .a0

/-- The oldest eligible class 4 operation of a stream. -/
def State.oldestOf4 (s : State) (st : Stream) : Option MediaOp :=
  oldest (fun op => s.eligible op && decide (opClass s.cleaner.mode op = 4) && decide (op.origin = .stream st)) s.media.queue

/-- The class 4 choice, counted from a turn, with the stream it was made at (R90). -/
def State.choice4 (s : State) : Nat → Stream → Option (MediaOp × Stream)
  | 0, _ => none
  | n + 1, st =>
    match s.oldestOf4 st with
    | some op => some (op, st)
    | none => s.choice4 n (streamNext st)

/-! ### The grant (R89 to R91) -/

/-- A choice of the arbiter: the operation, the class it was granted in and the turns after it. -/
structure GrantChoice where
  op : MediaOp
  cls : Nat
  turn3 : Turn3
  turn4 : Stream
deriving DecidableEq, Repr

/-- The first of the six choices of R89 that finds an eligible operation. -/
def State.arbiterChoice (s : State) : Option GrantChoice :=
  let keep (op : MediaOp) (n : Nat) : GrantChoice := ⟨op, n, s.media.turn3, s.media.turn4⟩
  match s.oldestOfClass 1 with
  | some op => some (keep op 1)
  | none =>
  match s.oldestOfClass 2 with
  | some op => some (keep op 2)
  | none =>
  match (if s.media.share = Config.shareLimit then s.oldestOfClass 5 else none) with
  | some op => some (keep op 5)
  | none =>
  match s.choice3 3 s.media.turn3 with
  | some (op, t) => some ⟨op, 3, turn3After (decide (s.cleaner.mode = .urgent)) t, s.media.turn4⟩
  | none =>
  match s.choice4 9 s.media.turn4 with
  | some (op, st) => some ⟨op, 4, s.media.turn3, streamNext st⟩
  | none => (s.oldestOfClass 5).map fun op => keep op 5

/-- The cleaner share count after a grant (R91). `left` says whether a class 5 operation is eligible after the grant. -/
def shareAfter (share cls : Nat) (cleanerRead left : Bool) (mode : CleanerMode) : Nat :=
  if !left then 0
  else if cls = 3 ∨ cls = 4 then min (share + 1) Config.shareLimit
  else if cls = 5 ∨ (cls = 1 ∧ cleanerRead ∧ mode ≠ .urgent) then 0
  else share

/-- A READ RUN of the Cleaner. -/
def isCleanerRead (op : MediaOp) : Bool := decide (op.kind = .readRun) && decide (op.origin = .cleaner)

/-- The arbiter after a choice: the operation leaves the waiting ones, the turns and the share count move (R90, R91). -/
def State.afterGrant (s : State) (g : GrantChoice) : State :=
  let rest := s.media.queue.filter fun op => decide (op.id ≠ g.op.id)
  let s1 : State := { s with media := { s.media with queue := rest, turn3 := g.turn3, turn4 := g.turn4 } }
  let share := shareAfter s.media.share g.cls (isCleanerRead g.op) (s1.oldestOfClass 5).isSome s.cleaner.mode
  { s1 with media := { s1.media with share := share } }

end Sys2Proof.Machine
end

