-- ==== Sys2Proof/Machine/Staging.lean ====
section
/-! DEFINITION. Sections 4.1 and 4.2: slots, accounts, requests, pins, the staging index, and supersession. -/

namespace Sys2Proof.Machine

/-! ### Slots and charges (R61, R62) -/

/-- The record of a slot that is not FREE. -/
def State.slot (s : State) (n : Nat) : Option Slot := s.staging.slots.find? fun x => decide (x.number = n)

/-- Change a slot record. -/
def State.modSlot (s : State) (n : Nat) (f : Slot → Slot) : State :=
  { s with staging := { s.staging with slots := s.staging.slots.map fun x => if x.number = n then f x else x } }

/-- The account of a stream's slots: that of the port owning its group, or the cleaner account (R62). -/
def Staging.streamAccount (g : Staging) (st : Stream) : Account :=
  match streamGroup st with
  | none => .cleaner
  | some p => portAccount (g.owners.get p)

/-- The account a slot is charged to (R62). -/
def Staging.slotAccount (g : Staging) (x : Slot) : Account :=
  match x.origin with
  | .port _ => .general
  | .stream st => g.streamAccount st

/-- The limit of an account (R62). -/
def accountLimit (size : Nat) : Account → Nat
  | .portA => 3 * size / 8
  | .portB => 3 * size / 8
  | .cleaner => size / 8
  | .general => size / 8

/-- The lowest-numbered FREE slot, given the others in ascending order. DESIGN CHOICE, log entry 7. -/
def lowestFree : List Slot → Nat → Nat
  | [], k => k
  | x :: rest, k => if x.number = k then lowestFree rest (k + 1) else k

/-- A slot leaves FREE: its account's charge rises by 1 (R62). -/
def State.takeSlot (s : State) (x : Slot) : State :=
  let k := s.staging.slotAccount x
  { s with staging := { s.staging with
      slots := insertBy (fun y => (y.number, 0)) x s.staging.slots
      charges := s.staging.charges.set k (s.staging.charges.get k + 1) } }

/-- A slot leaves its gather queue and retention list, and the staging index (R64). -/
def State.detachSlot (s : State) (x : Slot) : State :=
  let s1 : State := { s with staging := { s.staging with index := s.staging.index.filter fun e => decide (e.slot ≠ x.number) } }
  match x.origin with
  | .port _ => s1
  | .stream st =>
    s1.modPlacer st fun y =>
      { y with queue := y.queue.filter fun n => decide (n ≠ x.number)
               retention := y.retention.filter fun n => decide (n ≠ x.number) }

/-- A slot that is FREE leaves the sets of its stream's pad requests; a request whose set is empty is satisfied (R80). -/
def State.leavePads (s : State) (x : Slot) : State :=
  match x.origin with
  | .port _ => s
  | .stream st =>
    s.modPlacer st fun y =>
      let left := y.requests.map fun r => { r with slots := r.slots.filter fun n => decide (n ≠ x.number) }
      { y with requests := left.filter fun r => !r.slots.isEmpty }

/-- A slot becomes FREE, and its account's charge falls by 1 (R62). -/
def State.releaseSlot (s : State) (x : Slot) : State :=
  let k := s.staging.slotAccount x
  { s with staging := { s.staging with
      slots := s.staging.slots.filter fun y => decide (y.number ≠ x.number)
      charges := s.staging.charges.set k (s.staging.charges.get k - 1) } }

/-- The event that frees a slot (R64): a pinned slot leaves its lists and is release due, any other becomes FREE. -/
def State.freeSlot (s : State) (n : Nat) : State :=
  match s.slot n with
  | none => s
  | some x =>
    if x.pins = 0 then ((s.detachSlot x).releaseSlot x).leavePads x
    else (s.detachSlot x).modSlot n fun y => { y with releaseDue := true }

/-- Free slots one after another. -/
def State.freeSlots (s : State) : List Nat → State
  | [] => s
  | n :: rest => (s.freeSlot n).freeSlots rest

/-- A READ's staging lookup pins a slot (R64, R67). -/
def State.pinSlot (s : State) (n : Nat) : State := s.modSlot n fun x => { x with pins := x.pins + 1 }

/-- A push from a slot is answered or abandoned: the pin is dropped, and a slot that is release due becomes FREE at its
last pin (R64). -/
def State.unpinSlot (s : State) (n : Nat) : State :=
  match s.slot n with
  | none => s
  | some x =>
    let s1 := s.modSlot n fun y => { y with pins := y.pins - 1 }
    if x.pins ≤ 1 ∧ x.releaseDue then s1.freeSlot n else s1

/-! ### Slot requests (R63) -/

/-- A new slot record. -/
def newSlot (number : Nat) (state : SlotState) (lbn : Nat) (origin : SlotOrigin) : Slot :=
  { number := number, state := state, lbn := lbn, origin := origin, kind := none, command := none, superseded := false,
    pins := 0, releaseDue := false, place := none, source := none, damaged := none, data := zeroBlock }

/-- The READ RUN a formed run enters the queue as (R114, R158). -/
def readRunOp (r : FormingRead) : MediaOp :=
  { plainOp .readRun (.band r.band r.first) r.lbns.length r.origin with
    slots := r.slots.map some, command := r.command, blocks := r.blocks }

/-- A formed read run gets a slot; with its last one it enters the media queue or the entry wait list (R158, R114). -/
def State.slotForRead (s : State) (run slot : Nat) : State :=
  match s.media.forming.find? fun r => decide (r.id = run) with
  | none => s
  | some r =>
    let r1 := { r with slots := r.slots ++ [slot] }
    if r1.lbns.length ≤ r1.slots.length then
      { s with media := { s.media with forming := s.media.forming.filter fun x => decide (x.id ≠ run) } }.submit (readRunOp r1)
    else
      { s with media := { s.media with forming := s.media.forming.map fun x => if x.id = run then r1 else x } }

/-- Grant a slot: it leaves FREE for the requested state with the LBN and origin of the request (R63). -/
def State.grantSlot (s : State) : SlotRequest → State
  | .fill p cmd st lbn =>
    let n := lowestFree s.staging.slots 0
    s.takeSlot { newSlot n .filling lbn (.stream st) with kind := some .host, command := some (p, cmd) }
  | .reading run p lbn =>
    let n := lowestFree s.staging.slots 0
    (s.takeSlot (newSlot n .reading lbn (.port p))).slotForRead run n
  | .cleaning run lbn offset =>
    let n := lowestFree s.staging.slots 0
    let band := ((s.media.forming.find? fun r => decide (r.id = run)).map fun r => r.band).getD 0
    let s1 := s.takeSlot { newSlot n .cleaning lbn (.stream .cleaner) with source := some (band, offset) }
    (s1.modCleaner fun c => { c with inRelocation := c.inRelocation + 1 }).slotForRead run n

/-- A slot request: granted at once while the account's charge is below its limit and no older request waits, and put on
the account's list otherwise (R63). -/
def State.requestSlot (s : State) (k : Account) (r : SlotRequest) : State :=
  if s.staging.charges.get k < accountLimit s.staging.size k ∧ s.staging.requests.get k = [] then s.grantSlot r
  else { s with staging := { s.staging with requests := s.staging.requests.set k (s.staging.requests.get k ++ [r]) } }

/-- Request slots one after another. -/
def State.requestSlots (s : State) (k : Account) : List SlotRequest → State
  | [] => s
  | r :: rest => (s.requestSlot k r).requestSlots k rest

/-- Grant an account's waiting requests from the oldest while its charge is below the limit (R63). The list given is the
account's waiting list. -/
def State.grantWaiting (s : State) (k : Account) : List SlotRequest → State
  | [] => { s with staging := { s.staging with requests := s.staging.requests.set k [] } }
  | r :: rest =>
    if s.staging.charges.get k < accountLimit s.staging.size k then (s.grantSlot r).grantWaiting k rest
    else { s with staging := { s.staging with requests := s.staging.requests.set k (r :: rest) } }

/-- Withdraw the waiting requests of an account that meet a test (R63). -/
def State.withdrawRequests (s : State) (k : Account) (f : SlotRequest → Bool) : State :=
  { s with staging := { s.staging with
      requests := s.staging.requests.set k ((s.staging.requests.get k).filter fun r => !f r) } }

/-- A request for a FILLING slot of one WRITE. -/
def fillFor (p : Port) (cmd : Nat) : SlotRequest → Bool
  | .fill q c _ _ => decide (q = p) && decide (c = cmd)
  | .reading _ _ _ => false
  | .cleaning _ _ _ => false

/-- A request for a slot of one read run. -/
def slotOfRun (run : Nat) : SlotRequest → Bool
  | .fill _ _ _ _ => false
  | .reading r _ _ => decide (r = run)
  | .cleaning r _ _ => decide (r = run)

/-- The pool is created when a record comes into force: N slots, all FREE (R61). -/
def State.createSlots (s : State) (g : Geometry) : State :=
  { s with staging := { Staging.reset with size := g.slots, owners := s.staging.owners } }

/-! ### The staging index (R67) -/

/-- The slot that the staging index names for an LBN. -/
def State.indexed (s : State) (x : Nat) : Option Nat :=
  (s.staging.index.find? fun e => decide (e.lbn = x)).map fun e => e.slot

/-- Remove the staging index entry of an LBN. -/
def State.unindex (s : State) (x : Nat) : State :=
  { s with staging := { s.staging with index := s.staging.index.filter fun e => decide (e.lbn ≠ x) } }

/-- The staging index names a slot as the newest copy of an LBN. -/
def State.setIndex (s : State) (x n : Nat) : State :=
  let s1 := s.unindex x
  { s1 with staging := { s1.staging with index := insertBy (fun e => (e.lbn, 0)) ⟨x, n⟩ s1.staging.index } }

/-! ### Groups and supersession (R53, R54) -/

/-- Two consecutive blocks of a run belong to one group: both HOST, the second LBN one above the first (R53). -/
def sameGroup (x y : Slot) : Bool :=
  decide (x.kind = some .host) && decide (y.kind = some .host) && decide (y.lbn = x.lbn + 1)

/-- The groups of a run's blocks (R53). -/
def countGroups : List Slot → Nat
  | [] => 0
  | [_] => 1
  | x :: y :: rest => (if sameGroup x y then 0 else 1) + countGroups (y :: rest)

/-- The slot stands inside its group: neither first nor last (R54). -/
def interiorIn (n : Nat) : List Slot → Bool
  | x :: y :: z :: rest =>
    (decide (y.number = n) && sameGroup x y && sameGroup y z) || interiorIn n (y :: z :: rest)
  | [] => false
  | [_] => false
  | [_, _] => false

/-- The slot records of numbers. -/
def State.slotsOf (s : State) (ns : List Nat) : List Slot := ns.filterMap s.slot

/-- A WRITING slot whose supersession divides its group and so needs 2 more records (R54). -/
def State.interior (s : State) (n : Nat) : Bool :=
  match s.slot n with
  | none => false
  | some x =>
    match x.state, x.origin with
    | .writing, .stream st =>
      match (s.placer st).run with
      | none => false
      | some r => interiorIn n (s.slotsOf r.slots)
    | _, _ => false

/-- Raise the reservation of the run that carries a slot by 2 (R54). -/
def State.extendReservation (s : State) (n : Nat) : State :=
  match s.slot n with
  | none => s
  | some x =>
    match x.origin with
    | .port _ => s
    | .stream st =>
      (s.reserve 2).modPlacer st fun y => { y with run := y.run.map fun r => { r with reserved := r.reserved + 2 } }

/-- Supersede a slot: it is marked, and leaves the staging index (R66, R67, R68). An interior WRITING slot first has its
run's reservation extended (R54). -/
def State.supersede (s : State) (n : Nat) : State :=
  let s1 := if s.interior n then s.extendReservation n else s
  let s2 := s1.modSlot n fun x => { x with superseded := true }
  { s2 with staging := { s2.staging with index := s2.staging.index.filter fun e => decide (e.slot ≠ n) } }

end Sys2Proof.Machine
end

