-- ==== Sys2Proof/Machine/Placer.lean ====
section
/-! DEFINITION. Sections 4.3 to 4.7: what the Stream Placers build, release, skip, re-place and pad. -/

namespace Sys2Proof.Machine

/-! ### Queues (R70) -/

/-- The slots of a gather queue that are not superseded, in order. -/
def State.waitingSlots (s : State) (st : Stream) : List Slot :=
  (s.slotsOf (s.placer st).queue).filter fun x => !x.superseded

/-- The waiting count of a queue (R70). -/
def State.waitingCount (s : State) (st : Stream) : Nat := (s.waitingSlots st).length

/-- A placer's open band with its record. -/
def State.openBand (s : State) (st : Stream) : Option (Nat × BandRecord) :=
  match (s.placer st).band with
  | none => none
  | some b => (s.band b).map fun r => (b, r)

/-- The idle timer starts again while blocks wait (R71). DEDUCED, log entry 32. -/
def State.restartIdle (s : State) (st : Stream) : State :=
  if s.waitingCount st = 0 then s else s.modPlacer st fun x => { x with idleTimer := true }

/-- The checkpoint state is QUIESCING, in which placers build nothing (R129). -/
def State.quiescing (s : State) : Bool := decide (s.recovery.checkpoint.state = .quiescing)

/-! ### The runs a placer would build (R72, R76, R79) -/

/-- The slots of a placer's open pad requests. -/
def State.padSlots (s : State) (st : Stream) : List Nat := ((s.placer st).requests.map fun r => r.slots).flatten

/-- A list up to the last element that meets a test. -/
def upToLast {α : Type} (f : α → Bool) : List α → List α
  | [] => []
  | x :: rest =>
    match upToLast f rest with
    | [] => if f x then [x] else []
    | y :: ys => x :: y :: ys

/-- The part of the queue that a run may take: in PLACING, up to the last slot the pad requests must see placed (R72). -/
def State.runSource (s : State) (st : Stream) : List Nat :=
  let x := s.placer st
  if x.pad = .placing then upToLast (fun n => decide (n ∈ s.padSlots st)) x.queue else x.queue

/-- The offsets left for one run at a band's write pointer: to the end of its track, and to C(z) (R72). -/
def runRoom (sh : BandShape) (wp : Nat) : Nat := min (sh.track - wp % sh.track) (sh.capacity - wp)

/-- The slots of the data run that a placer would build (R72). -/
def State.plannedRun (s : State) (st : Stream) : List Slot :=
  match s.openBand st with
  | none => []
  | some (b, r) =>
    ((s.slotsOf (s.runSource st)).filter fun x => !x.superseded).take (runRoom (s.shape b) r.wp)

/-- MINRUN of the record in force. -/
def State.minRun (s : State) : Nat := (s.geo.inForce.map fun g => g.minRun).getD 0

/-- A placer is PADDING. -/
def isPadding : PadState → Bool
  | .none => false
  | .placing => false
  | .padding _ => true

/-- A placer with an open band may build on it: it has no outstanding run and the band has no suspect window (R24, R72). -/
def State.bandFree (s : State) (st : Stream) (r : BandRecord) : Bool := (s.placer st).run.isNone && r.suspect.isNone

/-- A trigger of R72 holds and the placer has a data run to build. -/
def State.wantsRun (s : State) (st : Stream) : Bool :=
  match s.openBand st with
  | none => false
  | some (b, r) =>
    let x := s.placer st
    let sh := s.shape b
    let n := (s.plannedRun st).length
    s.bandFree st r && decide (r.wp < sh.capacity) && !isPadding x.pad && decide (0 < n)
      && (decide (min s.minRun (runRoom sh r.wp) ≤ n) || x.idleDue || decide (x.pad = .placing))

/-- The footer is due: wp and the done mark equal C(z), or an unwritten footer is to be built again (R76, R27). -/
def State.wantsFooter (s : State) (st : Stream) : Bool :=
  match s.openBand st with
  | none => false
  | some (b, r) =>
    let sh := s.shape b
    s.bandFree st r && decide (r.done = sh.capacity) && (decide (r.wp = sh.capacity) || decide (r.wp = sh.size))

/-- The length of the pad run a placer in PADDING would build (R79). -/
def State.padRunLength (s : State) (st : Stream) : Nat :=
  match s.openBand st, (s.placer st).pad with
  | some (b, r), .padding target => min (target - r.wp) (runRoom (s.shape b) r.wp)
  | _, _ => 0

/-- A pad run is due (R79). -/
def State.wantsPad (s : State) (st : Stream) : Bool :=
  match s.openBand st with
  | none => false
  | some (_, r) => s.bandFree st r && decide (0 < s.padRunLength st)

/-- The length of the footer write of a placer's band (R76). -/
def State.footerLength (s : State) (st : Stream) : Nat :=
  match s.openBand st with
  | none => 0
  | some (b, _) => (s.shape b).size - (s.shape b).capacity

/-- The run that a placer would build: its footer, a pad run or a data run (R72, R76, R79). -/
def State.dueRun (s : State) (st : Stream) : Option WaitingRun :=
  if s.wantsFooter st then some { kind := .footer, slots := [], count := s.footerLength st }
  else if s.wantsPad st then some { kind := .pad, slots := [], count := s.padRunLength st }
  else if s.wantsRun st then
    some { kind := .data, slots := (s.plannedRun st).map fun x => x.number, count := (s.plannedRun st).length }
  else none

/-! ### Building (R57, R72, R75, R76, R79) -/

/-- The summary entry of a slot in a run (R75). -/
def slotEntry (run : Nat) (x : Slot) : Entry :=
  match x.kind with
  | some .relocated => { kind := .relocated, lbn := x.lbn, run := run, source := x.source }
  | some .replaced => { kind := .relocated, lbn := x.lbn, run := run, source := x.damaged }
  | some .host => { kind := .host, lbn := x.lbn, run := run, source := none }
  | none => { kind := .host, lbn := x.lbn, run := run, source := none }

/-- A pad entry (R75). -/
def padEntry (run : Nat) : Entry := { kind := .pad, lbn := 0, run := run, source := none }

/-- The entry NONE (R75). -/
def noEntry : Entry := { kind := .none, lbn := 0, run := 0, source := none }

/-- Entries with their offsets. -/
def entriesAt : Nat → List Entry → List (Nat × Entry)
  | _, [] => []
  | o, e :: rest => (o, e) :: entriesAt (o + 1) rest

/-- The entry of a summary at an offset: NONE where nothing is listed (R75). -/
def summaryEntry (summary : List (Nat × Entry)) (o : Nat) : Entry :=
  ((summary.find? fun e => decide (e.1 = o)).map fun e => e.2).getD noEntry

/-- An operation enters the media queue at once, with its identity and arrival time (R57, R85). -/
def State.enterRun (s : State) (op : MediaOp) : State :=
  let n := s.media.stamp
  { s with media := { s.media with queue := s.media.queue ++ [{ op with id := n, arrival := n, aged := false }], stamp := n + 1 } }

/-- Slots become WRITING at consecutive offsets of a band (R72). -/
def State.placeSlots (s : State) (band track : Nat) : Nat → List Nat → State
  | _, [] => s
  | o, n :: rest =>
    (s.modSlot n fun x => { x with state := .writing, place := some ⟨band, o, o / track⟩ }).placeSlots band track (o + 1) rest

/-- A WRITE notes that a block of it has been built into a run (R55, R71). -/
def noteBuilt (id lbn : Nat) (c : Command) : Command :=
  if c.id = id then
    match c.work with
    | .write next accepted built => { c with work := .write next accepted (if lbn ∈ built then built else built ++ [lbn]) }
    | _ => c
  else c

/-- The WRITEs that supplied a run's HOST blocks note them as built. -/
def State.noteBuiltSlots (s : State) : List Slot → State
  | [] => s
  | x :: rest =>
    match x.command with
    | none => s.noteBuiltSlots rest
    | some (p, id) => (s.modPort p fun e => { e with list := e.list.map (noteBuilt id x.lbn) }).noteBuiltSlots rest

/-- The superseded slots that stand in a queue before the last slot a run takes (R68, R72). -/
def State.passedOver (s : State) (st : Stream) (plan : List Slot) : List Nat :=
  match plan.getLast? with
  | none => []
  | some last =>
    (((s.slotsOf (s.placer st).queue).takeWhile fun x => decide (x.number ≠ last.number)).filter fun x => x.superseded).map
      fun x => x.number

/-- A placer that takes slots for a run passes over the superseded ones before the last it takes, and frees them (R68, R72). -/
def State.passSuperseded (s : State) (st : Stream) : State := s.freeSlots (s.passedOver st (s.plannedRun st))

/-- A placer's request leaves the record wait list, and its map wait ends (R55). -/
def State.leaveRecordWait (s : State) (st : Stream) : State :=
  (s.dropRecordRequest (.placer st)).modPlacer st fun x => { x with mapWait := false }

/-- The placer leaves its waits when it builds. -/
def State.endBuildWaits (s : State) (st : Stream) : State :=
  ((s.leaveRecordWait st).unwaitEntry st).leavePhaseWait (.placer st)

/-- The build event of a data run (R57, R72). The caller has found every item it needs. -/
def State.buildRun (s : State) (st : Stream) : State :=
  match s.openBand st with
  | none => s
  | some (b, r) =>
    let plan := s.plannedRun st
    let taken := plan.map fun x => x.number
    let number := s.map.runCounter
    let groups := countGroups plan
    let claimed := s.map.writePhase
    let entries := plan.map (slotEntry number)
    let run : OutstandingRun :=
      { op := s.media.stamp, kind := .data, band := b, first := r.wp, count := taken.length, slots := taken,
        number := number, reserved := 2 * groups, claimed := claimed }
    let op : MediaOp :=
      { plainOp .writeRun (.band b r.wp) taken.length (.stream st) with
        run := number, slots := taken.map some, entries := entries }
    let s1 := (s.passSuperseded st).endBuildWaits st
    let s2 := (((s1.modBand b fun y => { y with wp := y.wp + taken.length }).reserve (2 * groups)).takeRun).claimEntry
    let s3 := (s2.placeSlots b (s.shape b).track r.wp taken).noteBuiltSlots plan
    (s3.modPlacer st fun x =>
      { x with queue := x.queue.filter (fun n => decide (n ∉ taken)), run := some run, idleDue := false
               summary := x.summary ++ entriesAt r.wp entries }).enterRun op

/-- The build event of the footer write (R76, R27). Its entries are the C(z) summary entries and one NONE for each footer
offset. The idle-due mark is cleared as at the build of any run (R71). DESIGN CHOICE, log entry 32. -/
def State.buildFooter (s : State) (st : Stream) : State :=
  match s.openBand st with
  | none => s
  | some (b, _) =>
    let sh := s.shape b
    let number := s.map.runCounter
    let entries := (countFrom 0 sh.capacity).map (summaryEntry (s.placer st).summary)
      ++ List.replicate (sh.size - sh.capacity) noEntry
    let run : OutstandingRun :=
      { op := s.media.stamp, kind := .footer, band := b, first := sh.capacity, count := sh.size - sh.capacity, slots := [],
        number := number, reserved := 0, claimed := false }
    let op : MediaOp :=
      { plainOp .footerWrite (.band b sh.capacity) (sh.size - sh.capacity) (.stream st) with run := number, entries := entries }
    let s1 := ((s.unwaitEntry st).modBand b fun y => { y with wp := sh.size }).takeRun
    (s1.modPlacer st fun x => { x with run := some run, idleDue := false }).enterRun op

/-- The build event of a pad run (R79). The placer leaves PADDING with the pad run that reaches the target. The idle-due mark
is cleared as at the build of any run (R71). DESIGN CHOICE, log entry 32. -/
def State.buildPad (s : State) (st : Stream) : State :=
  match s.openBand st with
  | none => s
  | some (b, r) =>
    let n := s.padRunLength st
    let number := s.map.runCounter
    let entries := List.replicate n (padEntry number)
    let run : OutstandingRun :=
      { op := s.media.stamp, kind := .pad, band := b, first := r.wp, count := n, slots := [], number := number,
        reserved := 0, claimed := false }
    let op : MediaOp :=
      { plainOp .writeRun (.band b r.wp) n (.stream st) with pad := true, run := number, entries := entries }
    let s1 := ((s.unwaitEntry st).modBand b fun y => { y with wp := y.wp + n }).takeRun
    (s1.modPlacer st fun x =>
      { x with run := some run, idleDue := false, summary := x.summary ++ entriesAt r.wp entries
               pad := (if x.pad = .padding (r.wp + n) then .none else x.pad) }).enterRun op

/-- The records of the Map Unit cover a placer's run (R53): 2 g + 1 where it has g groups, none where it has no group. -/
def State.recordsCover (s : State) (st : Stream) : Bool :=
  let g := countGroups (s.plannedRun st)
  decide (g = 0) || decide (2 * g + 1 ≤ s.map.available)

/-- A placer that lacks records joins the record wait list; a port stream's map wait starts (R53, R55). -/
def State.joinRecordWait (s : State) (st : Stream) : State :=
  if .placer st ∈ s.map.recordWait then s
  else (s.addRecordRequest (.placer st)).modPlacer st fun x => { x with mapWait := decide (st ≠ .cleaner) }

/-- A placer may build now, but for room in the queue: no checkpoint quiesces and a run number is left (R129, R57). -/
def State.mayBuild (s : State) : Bool := !s.quiescing && s.map.runLeft

/-- A placer builds what is due, room in the media queue given, or does not build (none). -/
def State.buildDue (s : State) (st : Stream) : Option State :=
  if !s.mayBuild then none
  else if s.wantsFooter st then some (s.buildFooter st)
  else if s.wantsPad st then some (s.buildPad st)
  else if s.wantsRun st && s.recordsCover st && s.map.entryFree (.placer st) then some (s.buildRun st)
  else none

/-- A placer waits for room in the queue with the run it would build (R86). It has taken the slots of a data run, and passed over
the superseded ones among them, before it asks for the room (R72). -/
def State.waitForRoom (s : State) (st : Stream) : State :=
  match s.dueRun st with
  | none => s
  | some run => (if run.kind = .data then s.passSuperseded st else s).waitEntry st run

/-- A build with the queue as it is: at once where there is room, else the placer joins the entry wait list (R86). -/
def State.buildOrWait (s : State) (st : Stream) (build : State → State) : State :=
  if s.queueRoom then build s else s.waitForRoom st

/-- What a placer whose data run is not built does: it has taken the run's slots and passed over the superseded ones, and waits for
what it lacks (R53, R55, R58, R72). Where its records are short it joins the record wait list, which starts its map wait, whatever
else it lacks. Where an entry place alone is lacking it waits till the write-phase flag is cleared. For a run number or the end of a
checkpoint's QUIESCING it waits as it is. That the wait for the flag begins only where nothing else is lacking, and that a placer
takes slots and asks for records in QUIESCING too, are DESIGN CHOICES, log entry 22. -/
def State.waitForItems (s : State) (st : Stream) : State :=
  if s.wantsRun st then
    let s1 := s.passSuperseded st
    if !s.recordsCover st then s1.joinRecordWait st
    else if s.mayBuild && !s.map.entryFree (.placer st) then s1.joinPhaseWait (.placer st)
    else s1
  else s

/-- A placer with a data run to build tries to build it (R72): it builds the run or waits for room in the queue where its records,
an entry place and a number can be had, and otherwise waits for what it lacks, its records first. -/
def State.tryRun (s : State) (st : Stream) : State :=
  if s.recordsCover st && s.mayBuild && s.map.entryFree (.placer st) then s.buildOrWait st fun x => x.buildRun st
  else s.waitForItems st

/-! ### Retention (R77, R78) -/

/-- An offset lies in a suspect window. -/
def inWindow (w : Option (Nat × Nat)) (o : Nat) : Bool :=
  match w with
  | none => false
  | some (f, l) => decide (f ≤ o) && decide (o ≤ l)

/-- The release test of R77 for one HELD slot. -/
def releasable (track : Nat) (r : BandRecord) (x : Slot) : Bool :=
  match x.place with
  | none => false
  | some p => decide ((p.track + 2) * track ≤ r.done) && !inWindow r.suspect p.offset

/-- Release the retained slots that R77 makes safe. -/
def State.releaseRetained (s : State) (st : Stream) : State :=
  match s.openBand st with
  | none => s
  | some (b, r) =>
    let safe := (s.slotsOf (s.placer st).retention).filter (releasable (s.shape b).track r)
    s.freeSlots (safe.map fun x => x.number)

/-- The placer loses its band, which has become FULL or RETIRED: its whole retention list is released and the summary is
discarded (R75, R78, R84). -/
def State.loseBand (s : State) (st : Stream) : State :=
  (s.freeSlots (s.placer st).retention).modPlacer st fun x =>
    { x with band := none, retention := [], summary := [], run := none, pad := (if isPadding x.pad then .none else x.pad) }

/-! ### Runs that do not count as written (R26, R82) -/

/-- A slot goes back to its queue: GATHERED, without its place. -/
def regathered (x : Slot) : Slot := { x with state := .gathered, place := none }

/-- The write pointer after a skip from a run's first offset (R26). -/
def skipTo (sh : BandShape) (first : Nat) : Nat := min ((first / sh.track + 1) * sh.track) sh.capacity

/-- Change the slot records of numbers. -/
def State.modSlots (s : State) (f : Slot → Slot) : List Nat → State
  | [] => s
  | n :: rest => (s.modSlot n f).modSlots f rest

/-- The outstanding write run or pad run of a placer ends without counting as written (R26, R82). -/
def State.skipRun (s : State) (st : Stream) (run : OutstandingRun) : State :=
  let wp := skipTo (s.shape run.band) run.first
  let s1 := ((s.modBand run.band fun r => { r with wp := wp, done := wp }).unreserve run.reserved).unclaimEntry run.claimed
  let s2 := s1.modSlots regathered run.slots
  let s3 := s2.modPlacer st fun x =>
    { x with queue := run.slots ++ x.queue, run := none
             summary := x.summary.filter (fun e => decide (e.1 < run.first ∨ wp ≤ e.1))
             pad := (match x.pad with
               | .padding target => if target ≤ wp then .none else .padding target
               | .none => .none
               | .placing => .placing) }
  (s3.releaseRetained st).restartIdle st

/-- The outstanding footer write of a placer ends without counting as written: it is to be built again (R27). -/
def State.dropFooter (s : State) (st : Stream) : State :=
  (s.modPlacer st fun x => { x with run := none }).restartIdle st

/-- The suspect window of a shock abort or write fault of a run (R31). -/
def suspectWindow (track : Nat) (run : OutstandingRun) : Nat × Nat :=
  ((run.first / track - 1) * track, run.first + run.count - 1)

/-- A run ends by shock abort or write fault: its band receives its suspect window, and the run is skipped or the footer is
to be built again (R26, R27, R31). -/
def State.damageRun (s : State) (st : Stream) (run : OutstandingRun) : State :=
  let window := suspectWindow (s.shape run.band).track run
  let s1 := s.modBand run.band fun r => { r with suspect := some window }
  if run.kind = .footer then s1.dropFooter st else s1.skipRun st run

/-! ### Verify outcomes (R83) -/

/-- A slot whose copy failed verify: RE-PLACED, with its place as damaged place (R83). It stays a slot of the WRITE that
supplied it, whose pad request covers it (R80). DEDUCED, log entry 31. -/
def replacedSlot (x : Slot) : Slot :=
  { x with state := .gathered, kind := some .replaced, source := none, place := none
           damaged := x.place.map fun p => (p.band, p.offset) }

/-- The HELD slots of a placer that stand at given offsets, in offset order. -/
def State.retainedAt (s : State) (st : Stream) (offsets : List Nat) : List Nat :=
  ((s.slotsOf (s.placer st).retention).filter fun x =>
    match x.place with
    | none => false
    | some p => decide (p.offset ∈ offsets)).map fun x => x.number

/-- The failed blocks of a verify return to the head of the queue (R83). -/
def State.regatherFailed (s : State) (st : Stream) (fails : List Nat) : State :=
  let failed := s.retainedAt st fails
  (s.modSlots replacedSlot failed).modPlacer st fun x =>
    { x with queue := failed ++ x.queue, retention := x.retention.filter fun n => decide (n ∉ failed) }

/-! ### Pads (R79 to R81) -/

/-- The pad target from a write pointer (R79). -/
def padTarget (sh : BandShape) (wp : Nat) : Nat :=
  let t := wp % sh.track
  min (if t = 0 then wp + sh.track else wp + (sh.track - t) + sh.track) sh.capacity

/-- A slot request waits on an account (R81): the account's charge is at its limit, so that R63 grants none from its list.
DEDUCED, log entry 9. -/
def Staging.stalled (g : Staging) (k : Account) : Bool :=
  !(g.requests.get k).isEmpty && decide (accountLimit g.size k ≤ g.charges.get k)

/-- A pressure pad is due (R81). -/
def State.pressurePad (s : State) (st : Stream) (r : BandRecord) : Bool :=
  s.staging.stalled (s.staging.streamAccount st) && decide (s.waitingCount st = 0) && decide (0 < r.wp)
    && !(s.placer st).retention.isEmpty

/-- The pad state after an event (R79 to R81, R84). A placer stays in PLACING while the last slots of an open request's set are
in its outstanding run or beside a suspect window, as in the example of section 4.6: DEDUCED, log entry 9. A placer whose wp
stands at C(z) does not enter PADDING with a pad of 0 blocks: DESIGN CHOICE, log entry 9. A set slot that is release due has left
its list (R64) and counts neither as GATHERED nor as HELD here: DESIGN CHOICE, log entry 9. -/
def State.padStateNow (s : State) (st : Stream) : PadState :=
  let x := s.placer st
  let set := s.padSlots st
  if set.any (fun n => decide (n ∈ x.queue)) then .placing
  else
    match s.openBand st with
    | none => .none
    | some (b, r) =>
      if isPadding x.pad || (decide (x.pad = .placing) && !set.isEmpty && !s.bandFree st r) then x.pad
      else if s.bandFree st r && decide (r.wp < (s.shape b).capacity)
          && (set.any (fun n => decide (n ∈ x.retention)) || s.pressurePad st r) then
        .padding (padTarget (s.shape b) r.wp)
      else .none

/-- Make a pad request (R80). A request whose set is empty is satisfied when it is made and is not kept. -/
def State.requestPad (s : State) (st : Stream) (owner : PadOwner) (slots : List Nat) : State :=
  if slots.isEmpty then s
  else s.modPlacer st fun x => { x with requests := x.requests ++ [{ owner := owner, slots := slots }] }

/-- The slots of a stream that are GATHERED, WRITING or HELD, which a FLUSH or the Cleaner asks for (R80). -/
def State.streamSet (s : State) (st : Stream) : List Nat :=
  (s.staging.slots.filter fun x =>
    decide (x.origin = .stream st)
      && (decide (x.state = .gathered) || decide (x.state = .writing) || decide (x.state = .held))).map fun x => x.number

/-- Withdraw the pad requests of owners that meet a test (R161, R171). -/
def State.withdrawPads (s : State) (f : PadOwner → Bool) : List Stream → State
  | [] => s
  | st :: rest =>
    (s.modPlacer st fun x => { x with requests := x.requests.filter fun r => !f r.owner }).withdrawPads f rest

/-- A pad request of an owner is open on some stream. -/
def State.padOpen (s : State) (owner : PadOwner) : Bool :=
  allStreams.any fun st => (s.placer st).requests.any fun r => decide (r.owner = owner)

/-! ### What a placer does after an event -/

/-- Free the superseded slots that stand at the head of a queue (R68). -/
def State.freeHeads (s : State) : List Nat → State
  | [] => s
  | n :: rest =>
    match s.slot n with
    | none => s
    | some x => if x.superseded then (s.freeSlot n).freeHeads rest else s

/-- A placer without waiting blocks stops its idle timer and its band wait; one with waiting blocks and no band asks for
one (R71). -/
def State.placerBand (s : State) (st : Stream) : State :=
  if s.waitingCount st = 0 then
    (s.withdrawBand st).modPlacer st fun x => { x with idleTimer := false, bandWait := false }
  else if (s.placer st).band.isNone then
    if (s.placer st).bandWait then s else (s.askBand st).modPlacer st fun x => { x with bandWait := true }
  else s

/-- A placer waits for an item of the data run it would build (R53, R57, R58, R72, R86): for its records, for an entry place, for
room in the media queue, for a run number, or for the end of a checkpoint's QUIESCING. The last two waits stand in no list: a
placer with a run to build is in them as soon as none may be built. DESIGN CHOICE, log entry 22. -/
def State.awaitsItem (s : State) (st : Stream) : Bool :=
  decide (.placer st ∈ s.map.recordWait) || decide (.placer st ∈ s.map.phaseWait)
    || (s.media.entryWait.any fun w => (waitingRun st w).isSome) || !s.mayBuild

/-- What the waits of a placer's run become at the end of an event. While it waits for an item of its run, the run is recomputed and
the superseded slots that it now passes over are freed (R68, R72). A placer that no longer has a run to build leaves the record
wait list (R55) and the wait for an entry place. It leaves the entry wait list also where the run it would build is another than
the one it waits for (R86). -/
def State.placerWaits (s : State) (st : Stream) : State :=
  let s1 :=
    if s.wantsRun st then (if s.awaitsItem st then s.passSuperseded st else s)
    else (s.leaveRecordWait st).leavePhaseWait (.placer st)
  s1.unwaitChanged st (s1.dueRun st)

/-- What a placer does at the end of an event that reached it. -/
def State.placerReact (s : State) (st : Stream) : State :=
  let s1 := (s.freeHeads (s.placer st).queue).placerBand st
  (s1.modPlacer st fun x => { x with pad := s1.padStateNow st }).placerWaits st

/-- What the placers do at the end of an event. -/
def State.placersReact (s : State) : List Stream → State
  | [] => s
  | st :: rest => (s.placerReact st).placersReact rest

end Sys2Proof.Machine
end

