-- ==== Sys2Proof/Machine/Ports.lean ====
section
/-! DEFINITION. Chapter 8: commands of the in-flight list, pushes, the chain walk, write-back, and what ends a port's
commands early (R87, R141, R153, R171). -/

namespace Sys2Proof.Machine

/-! ### Commands (R145, R151) -/

/-- A RUNNING command of a port. -/
def State.command (s : State) (p : Port) (id : Nat) : Option Command :=
  (s.port p).list.find? fun c => decide (c.id = id) && c.status.isNone

/-- Change the RUNNING command of a number. -/
def State.modCommand (s : State) (p : Port) (id : Nat) (f : Command → Command) : State :=
  s.modPort p fun e => { e with list := e.list.map fun c => if c.id = id ∧ c.status = none then f c else c }

/-- A command that finishes: FINISHED with its completion (R151). -/
def finishedCommand (d : Completion) (c : Command) : Command := { c with status := some d, held := false, work := .none }

/-- A RUNNING command finishes. -/
def State.finish (s : State) (p : Port) (id : Nat) (d : Completion) : State := s.modCommand p id (finishedCommand d)

/-- Commands finish, one after another. -/
def State.finishAll (s : State) (d : Completion) : List (Port × Nat) → State
  | [] => s
  | (p, id) :: rest => (s.finish p id d).finishAll d rest

/-- Change the work of a RUNNING command. -/
def State.setWork (s : State) (p : Port) (id : Nat) (w : Work) : State := s.modCommand p id fun c => { c with work := w }

/-- Blocks done of a command that is torn or faulted (R171). -/
def blocksDoneAtEnd (c : Command) : Nat :=
  match c.work with
  | .read _ _ _ _ pushed _ => pushed
  | .write _ accepted _ => accepted
  | .trim applied => if applied then c.record.count.toNat else 0
  | .report _ _ entries => entries
  | .none => 0
  | .flush _ _ => 0
  | .checkpoint => 0
  | .close => 0

/-- Every RUNNING command of a list finishes with a status (R125, R153). -/
def endRunning (st : Status) (c : Command) : Command :=
  if c.status.isNone then finishedCommand (completed st (blocksDoneAtEnd c)) c else c

/-! ### Pushes (R158, R159, R165) -/

/-- Send a push of a block to the place of block `index` of a command's pieces. -/
def State.sendPush (s : State) (p : Port) (cmd index : Nat) (pieces : List Word64) (block : Block) (slot : Option Nat) : State :=
  s.modPort p fun e =>
    { e with pushes := e.pushes ++
        [{ cmd := cmd, index := index, address := blockAddress pieces index, block := block, slot := slot }] }

/-- A push is over: its READING slot becomes FREE, or its slot's pin is dropped (R64, R159). -/
def State.endPush (s : State) (x : Push) : State :=
  match x.slot with
  | none => s
  | some n =>
    match s.slot n with
    | none => s
    | some y => if y.state = .reading then s.freeSlot n else s.unpinSlot n

/-- Pushes are over, one after another. -/
def State.endPushes (s : State) : List Push → State
  | [] => s
  | x :: rest => (s.endPush x).endPushes rest

/-! ### Withdrawal of read runs (R87) -/

/-- A READ RUN of a port. -/
def isPortRead (p : Port) (op : MediaOp) : Bool := decide (op.kind = .readRun) && decide (op.origin = .port p)

/-- The band of an operation. -/
def opBand (op : MediaOp) : Nat :=
  match op.place with
  | .band b _ => b
  | .system _ => 0

/-- The first offset of an operation. -/
def opFirst (op : MediaOp) : Nat :=
  match op.place with
  | .band _ o => o
  | .system i => i

/-- Drop the references and free the slots of read runs. -/
def State.releaseReads (s : State) : List (Nat × List Nat) → State
  | [] => s
  | (b, slots) :: rest => ((s.freeSlots slots).dropRef b).releaseReads rest

/-- The operation of a waiter that is a read run of a port. -/
def waitingRead (p : Port) : Waiter → Option MediaOp
  | .op m => if isPortRead p m then some m else none
  | .placer _ _ => none

/-- The read run in flight of a port has its data discarded at its end (R87). -/
def State.discardInFlight (s : State) (p : Port) : State :=
  { s with seq := { s.seq with current := s.seq.current.map fun f => if isPortRead p f.op then { f with discard := true } else f } }

/-- Withdraw a port's read runs that wait for slots (R63, R171). -/
def State.withdrawForming (s : State) (p : Port) : State :=
  let runs := s.media.forming.filter fun r => decide (r.origin = .port p)
  let ids := runs.map fun r => r.id
  let s1 := s.withdrawRequests .general fun r => ids.any fun n => slotOfRun n r
  let s2 : State := { s1 with media := { s1.media with forming := s1.media.forming.filter fun r => decide (r.origin ≠ .port p) } }
  s2.releaseReads (runs.map fun r => (r.band, r.slots))

/-- Withdraw a port's read runs from the queue and the entry wait list (R87), in FAULTED as in every other part state.
DESIGN CHOICE, log entry 31. -/
def State.withdrawQueued (s : State) (p : Port) : State :=
  let queued := s.media.queue.filter (isPortRead p)
  let waiting := s.media.entryWait.filterMap (waitingRead p)
  let s1 : State := { s with media := { s.media with
    queue := s.media.queue.filter (fun op => !isPortRead p op)
    entryWait := s.media.entryWait.filter (fun w => (waitingRead p w).isNone) } }
  s1.releaseReads ((queued ++ waiting).map fun op => (opBand op, op.slots.filterMap id))

/-- Withdraw all of a port's read runs (R87). -/
def State.withdrawReads (s : State) (p : Port) : State := ((s.withdrawForming p).withdrawQueued p).discardInFlight p

/-! ### Pulls (R65) -/

/-- The FILLING slots of WRITEs of a port that meet a test. -/
def State.fillingSlots (s : State) (p : Port) (f : Nat → Bool) : List Nat :=
  (s.staging.slots.filter fun x =>
    decide (x.state = .filling) &&
      match x.command with
      | none => false
      | some (q, id) => decide (q = p) && f id).map fun x => x.number

/-- The pulls of a port that are under way (R65, R140): one for each FILLING slot of a RUNNING WRITE whose block has not
arrived, with the address that the WRITE's pieces give its block (R160). -/
def State.pulls (s : State) (p : Port) : List Pull :=
  s.staging.slots.filterMap fun x =>
    match x.command with
    | none => none
    | some (q, id) =>
      if q = p ∧ x.state = .filling ∧ x.number ∉ (s.port p).pulled then
        (s.command p id).map fun c =>
          let index := x.lbn - c.record.lbn.toNat
          { cmd := id, index := index, address := blockAddress c.record.pieces index, slot := x.number }
      else none

/-- A transaction is outstanding on a port's link, or one whose answer is to be discarded may be (R140, R141). -/
def State.linkBusy (s : State) (p : Port) : Bool :=
  let e := s.port p
  decide (e.walk ≠ .idle) || e.writeBack.isSome || !e.pushes.isEmpty || !(s.pulls p).isEmpty || e.late

/-- Pulls of a port's WRITEs that meet a test are abandoned, and their waiting slot requests withdrawn (R63, R65).
DEDUCED, log entry 31. -/
def State.abandonPulls (s : State) (p : Port) (f : Nat → Bool) : State :=
  let gone := s.fillingSlots p f
  let drop (r : SlotRequest) : Bool :=
    match r with
    | .fill q id _ _ => decide (q = p) && f id
    | .reading _ _ _ => false
    | .cleaning _ _ _ => false
  let s1 := (s.withdrawRequests .portA drop).withdrawRequests .portB drop
  let late := gone.any fun n => decide (n ∉ (s.port p).pulled)
  (s1.freeSlots gone).modPort p fun e =>
    { e with pulled := e.pulled.filter (fun n => decide (n ∉ gone)), late := e.late || late }

/-! ### Commands that end early (R141, R153, R171) -/

/-- A journal requester is a command of a port. -/
def requesterOf (p : Port) : JournalRequester → Bool
  | .command q _ => decide (q = p)
  | .checkpoint => false

/-- A pad request's owner is a command of a port. -/
def padOwnerOf (p : Port) : PadOwner → Bool
  | .command q _ => decide (q = p)
  | .cleaner => false

/-- A record request is made for a port: an acceptance or a trim. -/
def recordRequestOf (p : Port) : RecordRequest → Bool
  | .placer _ => false
  | .accept q _ => decide (q = p)
  | .trim q _ => decide (q = p)

/-- A port's unapplied trims leave the Map Unit, with their waits and those of its acceptances (R171). -/
def State.withdrawTrims (s : State) (p : Port) : State :=
  { s with map := { s.map with
      trims := s.map.trims.filter (fun t => decide (t.port ≠ p))
      recordWait := s.map.recordWait.filter (fun r => !recordRequestOf p r)
      phaseWait := s.map.phaseWait.filter (fun r => !recordRequestOf p r) } }

/-- A port's commands leave the checkpoint lists and the journal's requesters (R123, R171). A further journal write that only they
asked for still takes place: DESIGN CHOICE, log entry 15. -/
def State.leaveRecovery (s : State) (p : Port) : State :=
  let w := s.recovery.journalWrite
  { s with recovery := { s.recovery with
      joined := s.recovery.joined.filter (fun x => decide (x.1 ≠ p))
      next := s.recovery.next.filter (fun x => decide (x.1 ≠ p))
      journalWrite := { w with requesters := w.requesters.filter (fun r => !requesterOf p r)
                               furtherRequesters := w.furtherRequesters.filter (fun r => !requesterOf p r) } } }

/-- What a port's commands have not begun is not begun (R171): pushes, pulls, slot and pad requests, trims and waits. -/
def State.stopWork (s : State) (p : Port) : State :=
  let pushes := (s.port p).pushes
  let s1 := (s.modPort p fun e => { e with pushes := [], late := e.late || !pushes.isEmpty }).endPushes pushes
  let s2 := (s1.abandonPulls p fun _ => true).withdrawPads (padOwnerOf p) allStreams
  (s2.withdrawTrims p).leaveRecovery p

/-- The walk is at an end, with nothing outstanding and the poll timer stopped. DESIGN CHOICE, log entry 21. -/
def stopWalk (e : PortEngine) : PortEngine := { e with walk := .idle, pollTimer := none }

/-- The walk stops: the answer of an outstanding record read or poll is to be discarded, and the poll timer stops (R147, R150,
R153). -/
def discardWalk (e : PortEngine) : PortEngine := { stopWalk e with late := e.late || decide (e.walk ≠ .idle) }

/-- Every command of a port's list is abandoned, without write-back (R141). -/
def State.abandonAll (s : State) (p : Port) : State :=
  ((s.withdrawReads p).stopWork p).modPort p fun e => { stopWalk e with list := [], writeBack := none, pushes := [], pulled := [] }

/-- The port becomes STOPPED: the indications and the halt cause clear, and the position is kept (R150, R153). A STOPPED port
has no transaction outstanding (R142). -/
def stoppedPort (e : PortEngine) : PortEngine :=
  { stopWalk e with process := .stopped, cause := .none, stopRequested := false, teardown := false, writeBack := none,
                    late := false }

/-- With its list empty, a port with stop requested or a teardown in progress becomes STOPPED (R150, R153). -/
def stopWhenEmpty (e : PortEngine) : PortEngine :=
  if e.list = [] ∧ (e.stopRequested ∨ e.teardown) then stoppedPort e else e

/-- Tear a port down (R153): its RUNNING commands are torn, and the list is written back. -/
def State.tearDown (s : State) (p : Port) : State :=
  let s1 := s.modPort p fun e => { discardWalk e with teardown := true, list := e.list.map (endRunning .torn) }
  ((s1.withdrawReads p).stopWork p).modPort p stopWhenEmpty

/-- Every RUNNING command of a port finishes PART FAULT and PART FAULT is latched (R125, R171). Queued read runs stay in
the queue, and the data of one in flight is discarded. The port's read runs that are still forming, open or waiting for READING
slots, are withdrawn with their read references, and those on the entry wait list stay there. DESIGN CHOICE, log entry 31. -/
def State.faultPort (s : State) (p : Port) : State :=
  let s1 := s.modPort p fun e => latchPartFault { e with list := e.list.map (endRunning .partFault) }
  ((s1.withdrawForming p).discardInFlight p).stopWork p

/-- The part enters FAULTED (R125). -/
def State.enterFaulted (s : State) : State :=
  let s1 := (s.faultPort .a).faultPort .b
  { s1 with recovery := { s1.recovery with part := .faulted } }

/-! ### The chain walk (R146 to R149) -/

/-- The Port Engine starts a record read: RUNNING, at a record, nothing outstanding, room in the list, and the link UP (R142,
R145, R146). -/
def walkOn (e : PortEngine) : PortEngine :=
  match e.position with
  | .atRecord _ =>
    if e.process = .running ∧ e.walk = .idle ∧ e.stopRequested = false ∧ e.teardown = false ∧ e.linkUp
        ∧ e.list.length < Config.inFlightLimit then
      { e with walk := .record }
    else e
  | .none => e
  | .afterRecord _ => e

/-- Start the poll timer for the autopoll time as it stands; 0 leaves it stopped (R147). -/
def startPollTimer (e : PortEngine) : PortEngine :=
  { e with pollTimer := if e.autopoll = 0 then none else some e.autopoll }

/-- Halt with a cause: the walk stops (R141, R146). -/
def haltPort (c : HaltCause) (e : PortEngine) : PortEngine := { stopWalk e with process := .halted, cause := c }

/-- A chain format error: CHAIN FORMAT is latched and the port halts (R146, R147). -/
def chainFormatHalt (e : PortEngine) : PortEngine := haltPort .chainFormat (latchChainFormat e)

/-- The commands that end the chain at a record no longer do (R147, R152). -/
def chainGoesOn (l : Address) (c : Command) : Command := if c.record.last = l then { c with endsChain := false } else c

/-- The position moves on from an after position to a record found at its next address (R147, R152). -/
def moveOn (l next : Address) (e : PortEngine) : PortEngine :=
  { stopWalk e with position := .atRecord next, list := e.list.map (chainGoesOn l) }

/-- The answer to a poll of the next address of record `l` (R147, R150). A non-zero answer that is no multiple of 64 halts the
port and leaves its command ending the chain, so that its write-back reads the next address again (R152). DESIGN CHOICE, log
entry 19. -/
def pollNextAnswer (l next : Address) (e : PortEngine) : PortEngine :=
  if next = 0 then startPollTimer { stopWalk e with process := .suspendedEnd }
  else if aligned64 next then walkOn { moveOn l next e with process := .running }
  else chainFormatHalt e

/-- A port that suspends at a record it does not own (R146, R148). -/
def suspendNotOwned (e : PortEngine) : PortEngine := startPollTimer { stopWalk e with process := .suspendedNotOwned }

/-- The port after the taking of a command: the command joins the list, and the position follows its next address (R146).
Where the next address is no multiple of 64 the position stays. DEDUCED, log entry 19. -/
def takenPort (opcode : Nat) (c : CommandRecord) (first : Address) (e : PortEngine) : PortEngine :=
  let cmd : Command :=
    { id := e.nextId, opcode := opcode, record := c, first := first, endsChain := decide (c.next = 0), held := false,
      status := none, work := .none }
  let e1 : PortEngine := { stopWalk e with list := e.list ++ [cmd], nextId := e.nextId + 1, process := .running }
  if c.next = 0 then startPollTimer { e1 with process := .suspendedEnd, position := .afterRecord c.last }
  else if aligned64 c.next then { e1 with position := .atRecord c.next }
  else chainFormatHalt e1

/-! ### Write-back (R151, R152) -/

/-- A command that was torn (R151). -/
def isTorn (c : Command) : Bool :=
  match c.status with
  | none => false
  | some d => decide (d.status = .torn)

/-- The write of a command's status area, with EOQ as R152 sets it. -/
def statusWriteOf (c : Command) (eoq : Bool) : WriteBack :=
  match c.status with
  | none => .statusWrite eoq 0 0 0
  | some d => .statusWrite eoq (statusWordOf d) d.result0 d.result1

/-- The FINISHED head of the list begins its write-back (R151): with the next read where it ends the chain and the position
is still after its last record, and otherwise with the status write (R152). Nothing is sent while the link is DOWN (R142). A
position that a CHAIN HEAD and a second taking of that record have put after it again counts as still after it: DESIGN CHOICE, log
entry 19. -/
def writeBackBegin (e : PortEngine) : PortEngine :=
  match e.writeBack, e.list with
  | none, c :: _ =>
    if c.status.isSome ∧ e.linkUp then
      { e with writeBack := some (if c.endsChain ∧ e.position = .afterRecord c.record.last then .nextRead
                                  else statusWriteOf c c.endsChain) }
    else e
  | _, _ => e

/-- The answer to the next read of a write-back (R152). A poll outstanding with it is discarded where the position moves on or
the port halts (R147). Where a CHAIN HEAD has replaced the position meanwhile, the answer is not used and EOQ stands as the
taking left it. DESIGN CHOICE, log entry 19. -/
def writeBackNext (next : Address) (e : PortEngine) : PortEngine :=
  match e.writeBack, e.list with
  | some .nextRead, c :: _ =>
    if e.position = .afterRecord c.record.last then
      if next = 0 then { e with writeBack := some (statusWriteOf c true) }
      else if aligned64 next then
        let e1 := moveOn c.record.last next (discardWalk e)
        let process := if e.process = .suspendedEnd ∧ e.stopRequested = false then .running else e.process
        walkOn { e1 with writeBack := some (statusWriteOf c false), process := process }
      else { chainFormatHalt (discardWalk e) with writeBack := some (statusWriteOf c true) }
    else { e with writeBack := some (statusWriteOf c c.endsChain) }
  | _, _ => e

/-- The answer to the status write sends the flags write (R151). -/
def writeBackStatus (e : PortEngine) : PortEngine :=
  match e.writeBack, e.list with
  | some (.statusWrite eoq _ _ _), c :: _ =>
    { e with writeBack := some (.flagsWrite eoq (writeBackFlags c.record.flags eoq (isTorn c))) }
  | _, _ => e

/-- The write-back event is due: the flags write of the head of the list is outstanding. -/
def writeBackDue (e : PortEngine) : Bool :=
  match e.writeBack, e.list with
  | some (.flagsWrite _ _), _ :: _ => true
  | _, _ => false

/-- The write-back event (R151): the command leaves the list, and DONE MARK names it with the new count. -/
def writeBackDone (e : PortEngine) : PortEngine :=
  match e.list with
  | [] => e
  | c :: rest =>
    let count := e.writeBacks + 1
    walkOn (stopWhenEmpty { e with list := rest, writeBack := none, writeBacks := count, doneMark := doneMarkOf c.first count })

/-! ### Link faults and resets (R141, R142, R154) -/

/-- What a link fault or link loss does to the port itself (R141, R142): LINK FAULT is latched, and every state but STOPPED
becomes HALTED with the cause. DEDUCED, log entry 20. -/
def linkDown (c : HaltCause) (e : PortEngine) : PortEngine :=
  let e1 : PortEngine := { latchLinkFault e with late := false }
  if e.process = .stopped then e1
  else stopWhenEmpty { stopWalk e1 with process := .halted, cause := c, teardown := false }

/-- The port after RESET PORT (R154). The numbers given to commands go on, so that a slot's command field names no later
command. DESIGN CHOICE, log entry 31. The connection state is the link's own (R142). -/
def resetPortEngine (e : PortEngine) : PortEngine := { PortEngine.reset with nextId := e.nextId, linkUp := e.linkUp }

end Sys2Proof.Machine
end

