-- ==== Sys2Proof/Machine/Journal.lean ====
section
/-! DEFINITION. Chapter 7, sections 7.2 to 7.4: the checkpoint image, the start of a checkpoint and its watermark, the
journal and its writes; and the trim that appends to it (R56). -/

namespace Sys2Proof.Machine

/-! ### The image (R126) -/

/-- What an image keeps of a band record (R126). -/
def bandImage (r : BandRecord) : BandImage :=
  { state := r.state, wp := r.wp, done := r.done, live := r.live, closeNumber := r.closeNumber, footer := r.footer,
    faults := r.faults }

/-- Entries `k` times `n` onward, at most `n` of them: block `k` of a table. -/
def tableBlock {α : Type} (n k : Nat) (xs : List α) : List α := (xs.drop (n * k)).take n

/-- Block `i` of an image's body, counted from 1: the map blocks and then the band table blocks (R126). -/
def bodyBlock (g : Geometry) (table : List Extent) (bands : List BandImage) (i : Nat) : SysBlock :=
  if i ≤ mapBlocks g then .extents (tableBlock Config.extentsPerBlock (i - 1) table)
  else .bands (tableBlock Config.bandsPerBlock (i - 1 - mapBlocks g) bands)

/-- The sum of one block of an image's body (R126). -/
def blockSum : SysBlock → Word32
  | .extents rs => Config.extentBlockSum rs
  | .bands rs => Config.bandBlockSum rs
  | .unmarked => 0
  | .geometry _ _ => 0
  | .header _ => 0
  | .journal _ => 0

/-- The sum of blocks. -/
def blocksSum : List SysBlock → Word32
  | [] => 0
  | b :: rest => blockSum b + blocksSum rest

/-- The blocks `i` to `i + n - 1` of an image's body. -/
def bodyBlocks (g : Geometry) (table : List Extent) (bands : List BandImage) (i n : Nat) : List SysBlock :=
  (countFrom i n).map (bodyBlock g table bands)

/-- The image sum (R126). -/
def imageSum (g : Geometry) (table : List Extent) (bands : List BandImage) : Word32 :=
  blocksSum (bodyBlocks g table bands 1 (imageBlocks g - 1))

/-- The next SYSTEM WRITE of an image from body block `cursor`: its first block and count, at most one system track long
(R130). -/
def imageChunk (g : Geometry) (slot : ImageSlot) (cursor : Nat) : Nat × Nat :=
  let index := imageBase g slot + cursor
  (index, min (systemRemainder g index) (imageBlocks g - cursor))

/-! ### A checkpoint's writes (R130) -/

/-- The header of the checkpoint under way (R126, R130). -/
def State.checkpointHeader (s : State) (g : Geometry) : ImageHeader :=
  let c := s.recovery.checkpoint
  { sequence := s.recovery.sequence + 1, check := s.geo.checkWord, watermark := c.watermark, extents := s.map.table.length,
    closeCounter := c.closeCounter, firstUnreleased := c.unreleased, sum := imageSum g s.map.table c.bands }

/-- Issue the checkpoint's SYSTEM WRITE from its cursor: the next body blocks, or the header when the body is written
(R130). -/
def State.issueCheckpointWrite (s : State) : State :=
  match s.geo.inForce with
  | none => s
  | some g =>
    let c := s.recovery.checkpoint
    if c.cursor < imageBlocks g then
      let (index, n) := imageChunk g c.slot c.cursor
      let s1 := s.submit (systemWriteOp .checkpointWrite index (bodyBlocks g s.map.table c.bands c.cursor n))
      { s1 with recovery := { s1.recovery with checkpoint := { c with count := n } } }
    else
      let s1 := s.submit (systemWriteOp .checkpointWrite (imageBase g c.slot) [.header (s.checkpointHeader g)])
      { s1 with recovery := { s1.recovery with checkpoint := { c with count := 1 } } }

/-- The image slot a checkpoint writes: the one that is not the last image (R130). -/
def nextImage : Option ImageSlot → ImageSlot
  | none => .first
  | some .first => .second
  | some .second => .first

/-- A run that R129 waits for: a WRITE RUN or a FOOTER WRITE. -/
def isRunWrite (op : MediaOp) : Bool := decide (op.kind = .writeRun) || decide (op.kind = .footerWrite)

/-- The media queue holds no WRITE RUN and no FOOTER WRITE, queued or in flight (R129). A run aborted in POSITIONING whose SEEK is
still unanswered is not counted: it has ended at the shock event (R99), though its place in the queue is free only at that answer
(R94), where R129 leaves open which of the two it means. DESIGN CHOICE, log entry 14. -/
def State.noRunWrites (s : State) : Bool :=
  !s.media.queue.any isRunWrite
    && match s.seq.current with
       | none => true
       | some f => f.ended || !isRunWrite f.op

/-- The watermark event (R129): N0 is taken, the write-phase flag set and the band table fixed, and the writes begin. -/
def State.takeWatermark (s : State) : State :=
  let c : Checkpoint :=
    { state := .writing, watermark := s.map.runCounter, slot := nextImage s.recovery.lastImage,
      bands := s.bands.records.map bandImage, closeCounter := s.bands.closeCounter, unreleased := s.recovery.nextSequence,
      cursor := 1, count := 0, reissues := 0, finishUpTo := 0 }
  let s1 : State :=
    { s with recovery := { s.recovery with checkpoint := c, closeCount := 0 }
             map := { s.map with writePhase := true } }
  s1.issueCheckpointWrite

/-- The watermark event, when it is due (R129). In FAULTED a checkpoint stops where it stands (R125). -/
def State.watermark (s : State) : State :=
  if s.recovery.part ≠ .faulted ∧ s.recovery.checkpoint.state = .quiescing ∧ s.noRunWrites then s.takeWatermark else s

/-- A checkpoint starts: QUIESCING, and its watermark at once where no run stands in the way (R128, R129). -/
def State.startCheckpoint (s : State) (joined : List (Port × Nat)) : State :=
  let c := { s.recovery.checkpoint with state := .quiescing }
  { s with recovery := { s.recovery with checkpoint := c, joined := joined, next := [], due := false } }.watermark

/-- A request for a checkpoint, from a CHECKPOINT command or from within (R128). -/
def State.requestCheckpoint (s : State) (cmd : List (Port × Nat)) : State :=
  match s.recovery.checkpoint.state with
  | .idle => s.startCheckpoint cmd
  | .quiescing => { s with recovery := { s.recovery with joined := s.recovery.joined ++ cmd } }
  | .writing => { s with recovery := { s.recovery with due := true, next := s.recovery.next ++ cmd } }
  | .finishing => { s with recovery := { s.recovery with due := true, next := s.recovery.next ++ cmd } }

/-! ### Journal records (R127, R132) -/

/-- Unreleased records fill every record place (R127, R132). -/
def Recovery.journalFull (r : Recovery) : Bool := decide (Config.journalPlaces ≤ r.journal.length)

/-- The unwritten records. -/
def Recovery.unwritten (r : Recovery) : List JournalEntry := r.journal.filter fun e => !e.written

/-- Append a record while a place is free (R132): it takes the next journal sequence, and the record that fills the places
requests a checkpoint. The sequence is a 64-bit number (R127), held as a number without a bound that counts on after 2^64 - 1,
where no rule says what an append then does. DESIGN CHOICE, log entry 15. -/
def State.appendRecord (s : State) (k : JournalKind) : State :=
  let q := s.recovery.nextSequence
  let s1 : State := { s with recovery := { s.recovery with
    journal := s.recovery.journal ++ [{ record := { sequence := q, kind := k }, written := false }], nextSequence := q + 1 } }
  if s1.recovery.journalFull then s1.requestCheckpoint [] else s1

/-! ### Journal writes (R133) -/

/-- The journal block that holds the place of a sequence (R127). -/
def journalBlockOf (q : Nat) : Nat := q % Config.journalPlaces / Config.journalPerBlock

/-- The journal blocks of sequences, each once, in order. -/
def journalBlocksOf : List Nat → List Nat → List Nat
  | seen, [] => seen
  | seen, q :: rest => journalBlocksOf (if journalBlockOf q ∈ seen then seen else seen ++ [journalBlockOf q]) rest

/-- The contents of a journal block: all the unreleased records it holds (R133). The places of released records hold none.
DESIGN CHOICE, log entry 15. -/
def Recovery.journalBlock (r : Recovery) (k : Nat) : SysBlock :=
  .journal ((r.journal.map fun e => e.record).filter fun x => decide (journalBlockOf x.sequence = k))

/-- Issue the SYSTEM WRITE of the first journal block still to write (R133). DEDUCED, log entry 15. -/
def State.issueJournalWrite (s : State) : State :=
  match s.geo.inForce, s.recovery.journalWrite.blocks with
  | some g, k :: _ => s.submit (systemWriteOp .journalWrite (journalBase g + k) [s.recovery.journalBlock k])
  | _, _ => s

/-- A journal write starts for the unwritten records present (R133). -/
def State.startJournalWrite (s : State) (requesters : List JournalRequester) : State :=
  let taken := s.recovery.unwritten.map fun e => e.record.sequence
  let w : JournalWrite :=
    { active := true, taken := taken, blocks := journalBlocksOf [] taken, reissues := 0, requesters := requesters,
      further := false, furtherRequesters := [] }
  { s with recovery := { s.recovery with journalWrite := w } }.issueJournalWrite

/-- The answer of a journal write to a command: a FLUSH notes it, and a DURABLE TRIM finishes (R162, R163). -/
def State.answerCommand (s : State) (ok : Bool) (p : Port) (id : Nat) : State :=
  match s.command p id with
  | none => s
  | some c =>
    match c.work with
    | .flush total _ => s.setWork p id (.flush total (some ok))
    | .trim _ => s.finish p id (completed (if ok then .done else .mediaError) c.record.count.toNat)
    | _ => s

/-- The answers of a journal write to its requesters' commands. -/
def State.answerJournal (s : State) (ok : Bool) : List JournalRequester → State
  | [] => s
  | .command p id :: rest => (s.answerCommand ok p id).answerJournal ok rest
  | .checkpoint :: rest => s.answerJournal ok rest

/-- A request for a journal write (R133): it starts a write, is answered at once with success where nothing is unwritten,
or sets the further-write flag. A checkpoint's request is made only with records unwritten (R131). The answer at once is made
also at the start of a further write whose records a checkpoint's finish has released meanwhile, so that a DURABLE TRIM or a
FLUSH that asked for it has its success then: DESIGN CHOICE, log entry 15. -/
def State.requestJournal (s : State) (requesters : List JournalRequester) : State :=
  let w := s.recovery.journalWrite
  if w.active then
    { s with recovery := { s.recovery with
        journalWrite := { w with further := true, furtherRequesters := w.furtherRequesters ++ requesters } } }
  else if s.recovery.unwritten = [] then s.answerJournal true requesters
  else s.startJournalWrite requesters

/-- A band has become RETIRED (R132): its RETIRE record is appended and a journal write asked for, or it is held apart while
no place is free. One that is held apart asks for its journal write at the release that appends it, and not at its own event:
DESIGN CHOICE, log entry 15. -/
def State.recordRetirement (s : State) (b : Nat) : State :=
  if s.recovery.journalFull then { s with recovery := { s.recovery with heldRetires := s.recovery.heldRetires ++ [b] } }
  else (s.appendRecord (.retire b)).requestJournal []

/-- Append held RETIRE records after a release, as far as places allow (R132). The caller asks for the journal write. -/
def State.appendHeld (s : State) : List Nat → State
  | [] => s
  | b :: rest =>
    if s.recovery.journalFull then s
    else
      ({ s with recovery := { s.recovery with heldRetires := rest } }.appendRecord (.retire b)).appendHeld rest

/-! ### The release of a victim (R35) -/

/-- The first two conditions of a release: the band is CLEANING, with live count and read references 0 (R35). -/
def State.releaseClear (s : State) (b : Nat) : Bool :=
  match s.band b with
  | none => false
  | some r => decide (r.state = .cleaning) && decide (r.live = 0) && decide (r.refs = 0)

/-- The release test of the Band Table Unit (R35): a band whose release is held becomes EMPTY where all three conditions
hold. It is made for the request's arrival, a lowering of the band's live count, a dropped reference and a completed journal
write alone, so that a checkpoint's finish that releases the last unwritten record empties nothing. That it stands at the end
of such an event is a DESIGN CHOICE, and that it is made in every part state is DEDUCED: log entry 10. -/
def State.releaseTest (s : State) : State :=
  match s.bands.release with
  | none => s
  | some b =>
    if s.bands.retest then
      if s.releaseClear b && decide (s.recovery.unwritten = []) then
        let s1 := s.emptyTheBand b
        { s1 with bands := { s1.bands with release := none, retest := false } }
      else { s with bands := { s.bands with retest := false } }
    else s

/-! ### Trims (R56, R132, R162) -/

/-- The slots that a trim supersedes: those the staging index names for LBNs of its range (R56). -/
def State.trimSlots (s : State) (t : TrimRequest) : List Nat :=
  (s.staging.index.filter fun e => decide (t.first ≤ e.lbn) && decide (e.lbn ≤ t.last)).map fun e => e.slot

/-- A trim's need of records: 1, and 2 for each WRITING slot it supersedes inside its group (R56). -/
def State.trimNeed (s : State) (t : TrimRequest) : Nat := 1 + 2 * ((s.trimSlots t).filter s.interior).length

/-- Supersede slots one after another (R66, R56). -/
def State.supersedeAll (s : State) : List Nat → State
  | [] => s
  | n :: rest => (s.supersede n).supersedeAll rest

/-- A number and a journal place can be had for a trim (R57, R132). -/
def State.trimPlaces (s : State) : Bool := s.map.runLeft && !s.recovery.journalFull

/-- A trim still waits in the Map Unit. -/
def State.findTrim (s : State) (p : Port) (cmd : Nat) : Option TrimRequest :=
  s.map.trims.find? fun t => decide (t.port = p) && decide (t.cmd = cmd)

/-- The records of the Map Unit cover a waiting trim's need (R56). -/
def State.trimCovered (s : State) (p : Port) (cmd : Nat) : Bool :=
  match s.findTrim p cmd with
  | none => false
  | some t => decide (s.trimNeed t ≤ s.map.available)

/-- The application of a trim, at one event (R56, R162). -/
def State.applyTrim (s : State) (t : TrimRequest) : State :=
  let number := s.map.runCounter
  let s1 : State := ((s.dropRecordRequest (.trim t.port t.cmd)).leavePhaseWait (.trim t.port t.cmd)).takeRun
  let s2 : State := { s1 with map := { s1.map with trims := s1.map.trims.filter fun x => decide (x ≠ t) } }
  let s3 := (s2.supersedeAll (s.trimSlots t)).changeMap [.remove t.first t.last]
  let s4 := s3.appendRecord (.trim t.first (t.last + 1 - t.first) number)
  match s4.command t.port t.cmd with
  | none => s4
  | some c =>
    if durableBit c.record.flags then (s4.setWork t.port t.cmd (.trim true)).requestJournal [.command t.port t.cmd]
    else s4.finish t.port t.cmd (completed .done c.record.count.toNat)

/-- All that a trim needs can be had (R162): its records, a number and a journal place, and an entry place where one is needed. -/
def State.trimReady (s : State) (t : TrimRequest) : Bool :=
  decide (s.trimNeed t ≤ s.map.available) && s.trimPlaces && s.map.entryFree (.trim t.port t.cmd)

/-- What a trim that is not applied waits for (R56, R58, R132, R162). Where its records are short it joins the record wait list, which
starts its 5-s wait, whatever else it lacks. Where an entry place alone is lacking it waits till the write-phase flag is cleared.
For a number or a journal place it waits as it is, without a limit. That the wait for the flag begins only where nothing else is
lacking is DESIGN CHOICE, log entry 22. -/
def State.awaitTrim (s : State) (t : TrimRequest) : State :=
  if s.map.available < s.trimNeed t then s.addRecordRequest (.trim t.port t.cmd)
  else if s.trimPlaces && !s.map.entryFree (.trim t.port t.cmd) then s.joinPhaseWait (.trim t.port t.cmd)
  else s

/-- The Map Unit tries to apply a trim (R56): it is applied when all it needs can be had, and otherwise waits for what it lacks. -/
def State.tryTrim (s : State) (p : Port) (cmd : Nat) : State :=
  match s.findTrim p cmd with
  | none => s
  | some t => if s.trimReady t then s.applyTrim t else s.awaitTrim t

end Sys2Proof.Machine
end

