-- ==== Sys2Proof/Machine/Cleaner.lean ====
section
/-! DEFINITION. Chapter 6: the Cleaner. Its transitions that other blocks' events bring about are made at the end of those
events by `State.cleanerReact`. -/

namespace Sys2Proof.Machine

/-! ### The retired list -/

/-- The bands of the retired list marked AWAITING. -/
def Cleaner.awaiting (c : Cleaner) : List Nat :=
  (c.retired.filter fun e => decide (e.2 = .awaiting)).map fun e => e.1

/-! ### The mode (R106) -/

/-- LOW and CRIT of the record in force. -/
def State.thresholds (s : State) : Nat × Nat := (s.geo.inForce.map fun g => (g.low, g.crit)).getD (0, 0)

/-- The mode that the conditions of R106 give. DEDUCED, log entry 11. -/
def State.modeNow (s : State) : CleanerMode :=
  let t := s.thresholds
  if s.bands.emptyCount ≤ t.2 ∨ s.portWaiting then .urgent
  else if s.bands.emptyCount ≤ t.1 ∨ s.cleaner.awaiting ≠ [] then .background
  else .idle

/-! ### The choice of a victim (R109 to R111) -/

/-- The capacity part of the cleaner room: what the cleaner stream's open band has left, and at most two EMPTY bands
(R109). While the band's footer write is built, wp stands above C(z) and the band has 0 left. DESIGN CHOICE, log entry 11. -/
def State.roomCapacity (s : State) : Nat :=
  let left :=
    match s.openBand .cleaner with
    | none => 0
    | some (b, r) => (s.shape b).capacity - r.wp
  left + min s.bands.emptyCount 2 * (s.geo.inForce.map minCapacity).getD 0

/-- The cleaner room with a capacity part (R109). -/
def State.roomWith (s : State) (capacity : Nat) : Nat :=
  capacity - s.waitingCount .cleaner - 2 * (s.geo.inForce.map maxTrack).getD 0

/-- The cleaner room (R109). -/
def State.cleanerRoom (s : State) : Nat := s.roomWith s.roomCapacity

/-- The cleaner room has risen through a change in the EMPTY count or in the cleaner stream's band since it was last looked
at (R111): with the waiting count as it stands, the capacity part seen then gives less room. DEDUCED, log entry 11. -/
def State.roomRisen (s : State) : Bool := decide (s.roomWith s.cleaner.roomSeen < s.cleanerRoom)

/-- The use u of a band (R110). -/
def useOf (capacity : Nat) (r : BandRecord) : Nat := r.live * 1000 / capacity

/-- The age of a band: the close counter less its close number, modulo 4,294,967,296, capped (R110). -/
def ageOf (counter : Word32) (r : BandRecord) : Nat := min (counter - r.closeNumber.getD 0).toNat Config.ageLimit

/-- The BACKGROUND score and the URGENT score (R110). -/
def scoreOf (mode : CleanerMode) (capacity : Nat) (counter : Word32) (r : BandRecord) : Nat :=
  let u := useOf capacity r
  if mode = .urgent then 1000 - u else (1000 - u) * ageOf counter r / (1000 + u)

/-- An eligible FULL band (R109). The cleaner room is computed anew at each band record that a scan reads. DESIGN CHOICE,
log entry 11. -/
def State.eligibleFull (s : State) (b : Nat) (r : BandRecord) : Bool :=
  reclaimable (s.shape b).capacity r && decide (r.live ≤ s.cleanerRoom)

/-- The least of a list of numbers. -/
def least : List Nat → Option Nat
  | [] => none
  | x :: rest =>
    match least rest with
    | none => some x
    | some y => some (min x y)

/-- The lowest-numbered eligible band marked AWAITING (R111). -/
def State.awaitingVictim (s : State) : Option Nat :=
  least (s.cleaner.awaiting.filter fun b =>
    match s.band b with
    | none => false
    | some r => decide (r.live ≤ s.cleanerRoom))

/-- The scan of a victim that enters RELOCATING: footer or tags, from offset 0 (R112, R113). -/
def victimScan (r : BandRecord) : VictimScan := { kind := if r.footer then .footer else .tags, cursor := 0, ranges := [] }

/-- A band becomes the victim, and the Cleaner enters RELOCATING (R111, R112). -/
def State.takeVictim (s : State) (b : Nat) (k : VictimKind) : State :=
  match s.band b with
  | none => s
  | some r =>
    s.modCleaner fun c =>
      { c with state := .relocating, victim := some (b, k), table := none, scan := some (victimScan r), scanBuffer := []
               scanRead := false, candidates := [], recheck := [], unknown := [], recheckTimer := false, drain := false }

/-- The choice at an entry to SELECTING and at each restart: an eligible AWAITING band at once, else a scan from band 0
(R111). -/
def State.chooseVictim (s : State) : State :=
  match s.awaitingVictim with
  | some b => s.takeVictim b .retired
  | none =>
    s.modCleaner fun c =>
      { c with state := .selecting, table := some { mode := c.mode, cursor := 0, kept := none }, rescan := false
               roomSeen := s.roomCapacity }

/-- The band kept by a scan after it reads one more band: a strictly higher score replaces the one kept (R111). -/
def State.keepBest (s : State) (t : TableScan) (b : Nat) (r : BandRecord) : Option (Nat × Nat) :=
  if s.eligibleFull b r then
    let score := scoreOf t.mode (s.shape b).capacity s.bands.closeCounter r
    match t.kept with
    | none => some (b, score)
    | some (c, best) => if best < score then some (b, score) else some (c, best)
  else t.kept

/-- The scan reads the next band record (R111). -/
def State.scanStep (s : State) (t : TableScan) : TableScan :=
  match s.band t.cursor with
  | none => t
  | some r => { t with cursor := t.cursor + 1, kept := s.keepBest t t.cursor r }

/-- The scan reads the band records that are left, all at its end and as they stand there. R111 leaves open when each record of a
scan is read: DESIGN CHOICE, log entry 4. -/
def State.scanRest (s : State) (t : TableScan) : TableScan :=
  iterate s.scanStep (s.bands.records.length - t.cursor) t

/-- The end of a scan (R111, R34): the records not yet read are read at this one event (DESIGN CHOICE, log entry 4), the band kept becomes CLEANING and the victim if it is still FULL, the Cleaner scans
again if it is not, and waits in SELECTING where no band was kept. -/
def State.endScan (s : State) (t : TableScan) : State :=
  match (s.scanRest t).kept with
  | none => s.modCleaner fun c => { c with table := none, rescan := false, roomSeen := s.roomCapacity }
  | some (b, _) =>
    match s.band b with
    | none => s.chooseVictim
    | some r =>
      if r.state = .full then (s.modBand b fun y => { y with state := .cleaning }).takeVictim b .cleaning
      else s.chooseVictim

/-- The Cleaner leaves its victim, and moves to SELECTING or IDLE by its mode (R107). A running recheck timer stops. DESIGN
CHOICE, log entry 12. -/
def State.endVictim (s : State) : State :=
  let s1 := s.modCleaner fun c =>
    { c with victim := none, scan := none, scanBuffer := [], scanRead := false, candidates := [], recheck := [], unknown := []
             recheckTimer := false, drain := false, mode := s.modeNow }
  if s1.cleaner.mode = .idle then s1.modCleaner fun c => { c with state := .idle } else s1.chooseVictim

/-! ### Retired bands (R32, R36, R108, R120) -/

/-- The Cleaner's mark for a band on its retired list. -/
def Cleaner.mark (c : Cleaner) (b : Nat) (m : RetiredMark) : Cleaner :=
  { c with retired := insertBy (fun e => (e.1, 0)) (b, m) (c.retired.filter fun e => decide (e.1 ≠ b)) }

/-- The Cleaner's drain request is withdrawn (R120). -/
def State.withdrawDrain (s : State) : State := s.withdrawPads (fun o => decide (o = .cleaner)) [.cleaner]

/-- An unreadable live block of a CLEANING victim: the band becomes RETIRED, the pass goes on as one over a retired band
(R36, R120). In FAULTED the Cleaner makes no live check and finds none (R107). -/
def State.retireVictim (s : State) : State :=
  match s.cleaner.victim with
  | some (b, .cleaning) =>
    match s.band b with
    | none => s
    | some r =>
      if s.recovery.part = .faulted ∨ r.state ≠ .cleaning then s
      else
      let s1 := (s.modBand b fun y => { y with state := .retired }).recordRetirement b
      let s2 := s1.withdrawDrain.modCleaner fun c => { c with victim := some (b, .retired), drain := false }
      if r.live = 0 then s2 else s2.modCleaner fun c => c.mark b .attempted
  | some (_, .retired) => s
  | none => s

/-- A band retired from OPEN with live blocks joins the retired list as AWAITING (R108). A scan in SELECTING starts again
(R111). -/
def State.awaitRetired (s : State) (b : Nat) : State :=
  let s1 := s.modCleaner fun c => c.mark b .awaiting
  if s1.cleaner.state = .selecting then s1.chooseVictim else s1

/-! ### Reading the victim (R112 to R114) -/

/-- What one scan read covers: whether it reads footer blocks, its first offset and its count. -/
structure ScanPlan where
  footer : Bool
  first : Nat
  count : Nat
deriving DecidableEq, Repr

/-- The offsets of a tag scan read from `lo`, up to 8 within one track and below `hi` (R113). -/
def tagPlan (track lo hi : Nat) : ScanPlan :=
  { footer := false, first := lo, count := min (min Config.scanReadLimit (hi - lo)) (track - lo % track) }

/-- The next scan read of a victim; none where its scan is exhausted (R112, R113). -/
def scanPlan (sh : BandShape) (r : BandRecord) (v : VictimScan) : Option ScanPlan :=
  match v.ranges with
  | (lo, hi) :: _ => some (tagPlan sh.track lo hi)
  | [] =>
    match v.kind with
    | .footer =>
      if v.cursor < sh.capacity then
        let i := v.cursor / Config.entriesPerFooterBlock
        some { footer := true, first := sh.capacity + i, count := min Config.scanReadLimit (sh.size - sh.capacity - i) }
      else none
    | .tags => if v.cursor < r.done then some (tagPlan sh.track v.cursor r.done) else none

/-- The next scan read of the Cleaner's victim, with the victim. -/
def State.victimPlan (s : State) : Option (Nat × ScanPlan) :=
  match s.cleaner.victim, s.cleaner.scan with
  | some (b, _), some v =>
    match s.band b with
    | none => none
    | some r => (scanPlan (s.shape b) r v).map fun x => (b, x)
  | _, _ => none

/-- A scan read enters the media queue; it takes a read reference (R112, R33). -/
def State.issueScanRead (s : State) (b : Nat) (x : ScanPlan) : State :=
  let op : MediaOp := { plainOp .readRun (.band b x.first) x.count .cleaner with scan := true }
  ((s.addRef b).modCleaner fun c => { c with scanRead := true, outstanding := c.outstanding + 1 }).submit op

/-- The run that the Cleaner forms from the front of its candidate list, and the candidates left (R114). A DEAD candidate is
removed, and ends a run. -/
def gatherRun (alive : Nat × Nat → Bool) (track : Nat) : List (Nat × Nat) → List (Nat × Nat) →
    List (Nat × Nat) × List (Nat × Nat)
  | run, [] => (run, [])
  | run, c :: rest =>
    match run.getLast? with
    | none => if alive c then gatherRun alive track [c] rest else gatherRun alive track [] rest
    | some l =>
      if run.length < Config.readRunLimit ∧ c.1 = l.1 + 1 ∧ c.1 / track = l.1 / track then
        if alive c then gatherRun alive track (run ++ [c]) rest else (run, rest)
      else (run, c :: rest)

/-- Form one read run from the candidate list (R114): it takes a read reference and asks for its CLEANING slots. -/
def State.formCleanerRun (s : State) (b : Nat) : State :=
  let (run, rest) := gatherRun (fun c => s.liveCheck c.2 b c.1) (s.shape b).track [] s.cleaner.candidates
  match run with
  | [] => s.modCleaner fun c => { c with candidates := rest }
  | first :: _ =>
    let id := s.media.stamp
    let f : FormingRead :=
      { id := id, origin := .cleaner, command := 0, band := b, first := first.1, lbns := run.map (fun c => c.2), blocks := []
        slots := [], isOpen := false }
    let s1 := (s.addRef b).modCleaner fun c => { c with candidates := rest, outstanding := c.outstanding + 1 }
    let s2 : State := { s1 with media := { s1.media with forming := s1.media.forming ++ [f], stamp := id + 1 } }
    s2.requestSlots .cleaner (run.map fun c => .cleaning id c.2 c.1)

/-! ### Draining (R117, R118) -/

/-- What a pass over the recheck list does with its entries: those kept, and those that are candidates again (R117). -/
def State.recheckEntries (s : State) (b : Nat) : List (Nat × Nat) → List (Nat × Nat) × List (Nat × Nat)
  | [] => ([], [])
  | e :: rest =>
    let (kept, again) := s.recheckEntries b rest
    if !s.liveCheck e.2 b e.1 then (kept, again)
    else if (s.indexed e.2).isSome then (e :: kept, again)
    else (kept, e :: again)

/-- Go through the recheck list (R117): back to RELOCATING where a candidate re-entered, and the recheck timer where entries
were kept. Where none was kept, a running recheck timer stops. DESIGN CHOICE, log entry 12. -/
def State.recheckPass (s : State) (b : Nat) : State :=
  let (kept, again) := s.recheckEntries b s.cleaner.recheck
  s.modCleaner fun c =>
    { c with recheck := kept, candidates := sortBy (fun e => e) (c.candidates ++ again)
             state := (if again = [] then c.state else .relocating), recheckTimer := decide (kept ≠ []) }

/-- The drain request: every slot of the cleaner stream that is GATHERED, WRITING or HELD (R118). -/
def State.requestDrain (s : State) : State :=
  (s.requestPad .cleaner .cleaner (s.streamSet .cleaner)).modCleaner fun c => { c with drain := true }

/-! ### One transition of the Cleaner -/

/-- The reads and commits of the victim have ended (R117, R121). -/
def State.passOver (s : State) : Bool :=
  s.victimPlan.isNone && decide (s.cleaner.candidates = []) && decide (s.cleaner.outstanding = 0)
    && decide (s.cleaner.inRelocation = 0)

/-- The end of a pass over a retired victim (R121). -/
def State.endPass (s : State) (b : Nat) : State :=
  let attempted : State := if s.cleaner.retired.any (fun e => decide (e.1 = b)) then s.modCleaner fun c => c.mark b .attempted else s
  attempted.endVictim

/-- A transition in IDLE and SELECTING (R107, R111). -/
def State.selectingStep (s : State) : State :=
  match s.cleaner.state with
  | .idle => if s.cleaner.mode = .idle then s else s.chooseVictim
  | .selecting =>
    if s.cleaner.mode = .idle then s.modCleaner fun c => { c with state := .idle, table := none }
    else
      match s.cleaner.table with
      | none => if s.cleaner.rescan ∨ s.roomRisen then s.chooseVictim
                else s.modCleaner fun c => { c with roomSeen := s.roomCapacity }
      | some t => if t.mode = s.cleaner.mode then s else s.chooseVictim
  | .relocating => s
  | .draining => s
  | .releasing => s

/-- A transition in RELOCATING: form a run, make a scan read, or end the reads (R112, R114, R117, R121). -/
def State.relocatingStep (s : State) (b : Nat) (k : VictimKind) : State :=
  if s.cleaner.candidates ≠ [] then
    if s.cleaner.outstanding < Config.cleanerReads then s.formCleanerRun b else s
  else
    match s.victimPlan with
    | some (_, x) =>
      if s.cleaner.scanRead = false ∧ s.cleaner.outstanding < Config.cleanerReads then s.issueScanRead b x else s
    | none =>
      if s.passOver then
        match k with
        | .cleaning => (s.modCleaner fun c => { c with state := .draining }).recheckPass b
        | .retired => s.endPass b
      else s

/-- A transition in DRAINING (R117, R118, R121). -/
def State.drainingStep (s : State) (b : Nat) (k : VictimKind) (r : BandRecord) : State :=
  match k with
  | .retired => s.endPass b
  | .cleaning =>
    if s.cleaner.drain then
      if s.padOpen .cleaner then s
      else
        let s1 := s.modCleaner fun c => { c with state := .releasing }
        let s2 : State := { s1 with bands := { s1.bands with release := some b, retest := true } }
        if s2.recovery.unwritten = [] then s2 else s2.requestJournal []
    else if s.cleaner.recheck ≠ [] then s
    else if r.live = 0 then s.requestDrain
    else s.retireVictim.modCleaner fun c => { c with unknown := [] }

/-- A transition in RELEASING: the Band Table Unit's release test at the request's arrival; the end of the victim once it is released; and another
journal write where the journal is the only condition unmet (R35, R119). -/
def State.releasingStep (s : State) : State :=
  let s1 := s.releaseTest
  match s1.bands.release with
  | none => s1.endVictim
  | some b => if s1.releaseClear b && !s1.recovery.journalWrite.active then s1.requestJournal [] else s1

/-- One transition of the Cleaner, with its mode as it stands. -/
def State.cleanerStep (s : State) : State :=
  if s.recovery.part ≠ .ready then s
  else
    let s1 := s.modCleaner fun c => { c with mode := s.modeNow }
    match s1.cleaner.victim with
    | none => s1.selectingStep
    | some (b, k) =>
      match s1.band b with
      | none => s1
      | some r =>
        match s1.cleaner.state with
        | .relocating => s1.relocatingStep b k
        | .draining => s1.drainingStep b k r
        | .releasing => s1.releasingStep
        | .idle => s1
        | .selecting => s1

/-- Transitions that one event can bring about at most: forming runs up to the limit of reads, entering DRAINING, making the
drain request, entering RELEASING, releasing the victim and choosing the next. DESIGN CHOICE, log entry 10. -/
def cleanerTransitions : Nat := 16

/-- What the Cleaner does at the end of an event. -/
def State.cleanerReact (s : State) : State := iterate State.cleanerStep cleanerTransitions s

/-! ### Read outcomes (R112, R113, R115) -/

/-- The valid tag of a block: one that bears the check word of the record in force (R113, section 7.5). -/
def State.validTag (s : State) (m : MediaBlock) : Option Entry :=
  match m.tag with
  | none => none
  | some t => if t.check = s.geo.checkWord then some t.entry else none

/-- The candidate that an entry gives at an offset: HOST and RELOCATED (R112, R113). -/
def entryCandidate (o : Nat) (e : Entry) : Option (Nat × Nat) :=
  match e.kind with
  | .host => some (o, e.lbn)
  | .relocated => some (o, e.lbn)
  | .pad => none
  | .none => none

/-- The candidates of entries at offsets below a bound. -/
def entryCandidates (bound : Nat) (es : List (Nat × Entry)) : List (Nat × Nat) :=
  es.filterMap fun e => if e.1 < bound then entryCandidate e.1 e.2 else none

/-- A footer block's entries; none where it was unrecovered or holds no footer. -/
def footerEntries : Option MediaBlock → Option (List Entry)
  | some { content := .footer es, tag := _ } => some es
  | _ => none

/-- A footer scan read takes its blocks, from footer block `i` on: candidates of the blocks read, and the offset ranges of
those left to the tags (R112). -/
def takeFooterBlocks (sh : BandShape) (done : Nat) : Nat → List (Option MediaBlock) → List (Nat × Nat) × List (Nat × Nat)
  | _, [] => ([], [])
  | i, x :: rest =>
    let (found, ranges) := takeFooterBlocks sh done (i + 1) rest
    let lo := Config.entriesPerFooterBlock * i
    match footerEntries x with
    | some es => (entryCandidates sh.capacity (entriesAt lo es) ++ found, ranges)
    | none => (found, if lo < done then (lo, min (lo + Config.entriesPerFooterBlock) done) :: ranges else ranges)

/-- A tag scan read takes its blocks, from offset `o` on: candidates, and the offsets whose tag could not be read (R113). -/
def State.takeTagBlocks (s : State) : Nat → List (Option MediaBlock) → List (Nat × Nat) × List Nat
  | _, [] => ([], [])
  | o, x :: rest =>
    let (found, lost) := s.takeTagBlocks (o + 1) rest
    match x with
    | none => (found, o :: lost)
    | some m =>
      match (s.validTag m).bind (entryCandidate o) with
      | none => (found, lost)
      | some c => (c :: found, lost)

/-- The scan after a tag scan read that delivered offsets up to `next` (R113). -/
def advanceTags (v : VictimScan) (next : Nat) : VictimScan :=
  match v.ranges with
  | (_, hi) :: rest => if hi ≤ next then { v with ranges := rest } else { v with ranges := (next, hi) :: rest }
  | [] => { v with cursor := next }

/-- A scan read completes with its blocks delivered in order, `none` for an unrecovered one; a NOT READY completion delivers
fewer (R112, R113, R115). DEDUCED, log entry 12. In FAULTED the reference is dropped and the Cleaner's state stays as it stands
(R107). -/
def State.scanReadDone (s : State) (op : MediaOp) (blocks : List (Option MediaBlock)) : State :=
  let b := opBand op
  let first := opFirst op
  let sh := s.shape b
  let s1 := (s.dropRef b).modCleaner fun c =>
    { c with scanRead := false, outstanding := c.outstanding - 1, scanBuffer := blocks.filterMap id }
  match s1.cleaner.scan, s1.cleaner.victim with
  | some v, some (vb, _) =>
    let done := ((s.band vb).map fun r => r.done).getD 0
    if sh.capacity ≤ first ∧ v.ranges = [] ∧ v.kind = .footer then
      let i := first - sh.capacity
      let (found, ranges) := takeFooterBlocks sh done i blocks
      s1.modCleaner fun c =>
        { c with candidates := c.candidates ++ found
                 scan := some { v with ranges := ranges
                                       cursor := min (Config.entriesPerFooterBlock * (i + blocks.length)) sh.capacity } }
    else
      let (found, lost) := s1.takeTagBlocks first blocks
      s1.modCleaner fun c =>
        { c with candidates := c.candidates ++ found, unknown := c.unknown ++ lost
                 scan := some (advanceTags v (first + blocks.length)) }
  | _, _ => s1

/-- A delivered block's CLEANING slot becomes GATHERED with kind RELOCATED (R70, R115). -/
def relocatedSlot (data : Block) (x : Slot) : Slot := { x with state := .gathered, kind := some .relocated, data := data }

/-- The data of a media block. -/
def contentData : Content → Block
  | .user d => d
  | .footer _ => zeroBlock
  | .system _ => zeroBlock

/-- One block fewer in relocation. -/
def State.outOfRelocation (s : State) : State := s.modCleaner fun c => { c with inRelocation := c.inRelocation - 1 }

/-- One block of a data read of the Cleaner, delivered or unrecovered (R115). -/
def State.takeRelocated (s : State) (b o n : Nat) (x : Option MediaBlock) : State :=
  match x with
  | some m =>
    (s.modSlot n (relocatedSlot (contentData m.content))).modPlacer .cleaner fun y => { y with queue := y.queue ++ [n] }
  | none =>
    let lbn := ((s.slot n).map fun y => y.lbn).getD 0
    let s1 := (s.freeSlot n).outOfRelocation
    if s1.liveCheck lbn b o then s1.retireVictim else s1

/-- The blocks of a data read of the Cleaner in offset order; those beyond what was delivered were not read, and go on the
recheck list (R115). -/
def State.takeRelocatedAll (s : State) (b : Nat) : Nat → List Nat → List (Option MediaBlock) → State
  | _, [], _ => s
  | o, n :: ns, [] =>
    let lbn := ((s.slot n).map fun y => y.lbn).getD 0
    (((s.freeSlot n).outOfRelocation).modCleaner fun c => { c with recheck := c.recheck ++ [(o, lbn)] }).takeRelocatedAll b
      (o + 1) ns []
  | o, n :: ns, x :: xs => (s.takeRelocated b o n x).takeRelocatedAll b (o + 1) ns xs

/-- A data read of the Cleaner completes (R115). The idle timer starts again where a block has joined the queue (R71). In
FAULTED its reference is dropped and its slots settle, and the Cleaner's state stays as it stands (R107). DESIGN CHOICE,
log entry 12. -/
def State.cleanerReadDone (s : State) (op : MediaOp) (blocks : List (Option MediaBlock)) : State :=
  let b := opBand op
  let s1 := (s.dropRef b).modCleaner fun c => { c with outstanding := c.outstanding - 1 }
  let s2 := s1.takeRelocatedAll b (opFirst op) (op.slots.filterMap id) blocks
  if blocks.any Option.isSome then s2.restartIdle .cleaner else s2

end Sys2Proof.Machine
end

