-- ==== Sys2Proof/Machine/Accept.lean ====
section
/-! DEFINITION. Section 4.2 and R160, R161: pulls and acceptances of WRITEs, WRITEs that a placer's wait ends, the record
wait list (R55), and what the part does at the end of every event. -/

namespace Sys2Proof.Machine

/-! ### Pulls (R65, R160) -/

/-- The stream that a WRITE of a port names (R172). -/
def writeStream (p : Port) (c : CommandRecord) : Stream := (streamOfNumber p c.stream.toNat).getD .a0

/-- Ask for the FILLING slot of a WRITE's next block, on the account of the port that owns the stream (R63, R160).
DESIGN CHOICE, log entry 8. -/
def State.requestNextPull (s : State) (p : Port) (id : Nat) : State :=
  match s.command p id with
  | none => s
  | some c =>
    match c.work with
    | .write next accepted built =>
      if next < c.record.count.toNat then
        let st := writeStream p c.record
        let s1 := s.setWork p id (.write (next + 1) accepted built)
        s1.requestSlot (s.staging.streamAccount st) (.fill p id st (c.record.lbn.toNat + next))
      else s
    | _ => s

/-- The pull of a WRITE that is under way (R65). -/
def State.pullOf (s : State) (p : Port) (id : Nat) : Option Pull := (s.pulls p).find? fun x => decide (x.cmd = id)

/-! ### Acceptance (R66) -/

/-- The slots of a WRITE that are not FREE, RE-PLACED ones among them (R80). -/
def State.slotsOfWrite (s : State) (p : Port) (id : Nat) : List Nat :=
  (s.staging.slots.filter fun x => decide (x.command = some (p, id))).map fun x => x.number

/-- A WRITE's block has been accepted (R160): the last one finishes the WRITE, or makes its pad request where it is
DURABLE. -/
def State.countAccepted (s : State) (p : Port) (id : Nat) : State :=
  match s.command p id with
  | none => s
  | some c =>
    match c.work with
    | .write next accepted built =>
      let s1 := s.setWork p id (.write next (accepted + 1) built)
      if accepted + 1 < c.record.count.toNat then s1
      else if durableBit c.record.flags then s1.requestPad (writeStream p c.record) (.command p id) (s1.slotsOfWrite p id)
      else s1.finish p id (completed .done c.record.count.toNat)
    | _ => s

/-- Acceptance of the block in a pulled slot, at one event (R66). -/
def State.acceptSlot (s : State) (p : Port) (x : Slot) : State :=
  let s1 :=
    match s.indexed x.lbn with
    | none => s
    | some old => s.supersede old
  let s2 := (s1.setIndex x.lbn x.number).modSlot x.number fun y => { y with state := .gathered, superseded := false }
  let s3 := s2.modPort p fun e => { e with pulled := e.pulled.filter fun n => decide (n ≠ x.number) }
  let s4 :=
    match x.origin with
    | .port _ => s3
    | .stream st => s3.modPlacer st fun y => { y with queue := y.queue ++ [x.number], idleTimer := true }
  match x.command with
  | none => s4
  | some (q, id) => s4.countAccepted q id

/-- The next block of a port to be accepted: the first of its pulled slots (R65). -/
def State.nextAccept (s : State) (p : Port) : Option Slot :=
  match (s.port p).pulled with
  | [] => none
  | n :: _ => s.slot n

/-- The WRITING slot inside its group that an acceptance must supersede (R54, R66). -/
def State.interiorFor (s : State) (x : Slot) : Option Nat :=
  match s.indexed x.lbn with
  | none => none
  | some old => if s.interior old then some old else none

/-- The next acceptance of a port takes place, or waits on the record wait list for 2 records (R54, R66). -/
def State.tryAccept (s : State) (p : Port) : State :=
  match s.nextAccept p with
  | none => s
  | some x =>
    match s.interiorFor x with
    | none => s.acceptSlot p x
    | some old =>
      if 2 ≤ s.map.available then (s.dropRecordRequest (.accept p old)).acceptSlot p x
      else s.addRecordRequest (.accept p old)

/-- A waiting acceptance whose old slot is no longer a WRITING slot inside its group that the index names takes place
(R54, R66). -/
def State.acceptFreed (s : State) (p : Port) (old : Nat) : State :=
  match s.nextAccept p with
  | none => s.dropRecordRequest (.accept p old)
  | some x =>
    match s.interiorFor x with
    | none => (s.dropRecordRequest (.accept p old)).acceptSlot p x
    | some other => if other = old then s else s.dropRecordRequest (.accept p old)

/-- Waiting acceptances that need wait no longer take place. -/
def State.acceptReact (s : State) : List RecordRequest → State
  | [] => s
  | .accept p old :: rest => (s.acceptFreed p old).acceptReact rest
  | .placer _ :: rest => s.acceptReact rest
  | .trim _ _ :: rest => s.acceptReact rest

/-! ### WRITEs that a wait ends (R55, R71, R74, R161) -/

/-- The blocks of a WRITE that have been built into runs (R55, R71, R161). A block of a run that did not count as written, which is
GATHERED again and is dropped, counts: DESIGN CHOICE, log entry 31. -/
def builtCount (c : Command) : Nat :=
  match c.work with
  | .write _ _ built => built.length
  | _ => 0

/-- The WRITE that a HOST slot is a block of. A RE-PLACED block is not dropped for its WRITE (R55). DEDUCED, log entry 31. -/
def hostCommand (x : Slot) : Option (Port × Nat) := if x.kind = some .host then x.command else none

/-- End one WRITE that is still in progress (R161): its GATHERED blocks are dropped, its pulls abandoned, and its pad request
withdrawn. -/
def State.endWrite (s : State) (st : Status) (p : Port) (id : Nat) : State :=
  match s.command p id with
  | none => s
  | some c =>
    let gathered := (s.staging.slots.filter fun x =>
      decide (hostCommand x = some (p, id)) && decide (x.state = .gathered)).map fun x => x.number
    let s1 := (s.finish p id (completed st (builtCount c))).freeSlots gathered
    (s1.abandonPulls p fun n => decide (n = id)).withdrawPads (fun o => decide (o = .command p id)) allStreams

/-- End WRITEs one after another. -/
def State.endWrites (s : State) (st : Status) : List (Port × Nat) → State
  | [] => s
  | (p, id) :: rest => (s.endWrite st p id).endWrites st rest

/-- The WRITEs that supplied slots, each once. -/
def writesOf : List Slot → List (Port × Nat)
  | [] => []
  | x :: rest =>
    match hostCommand x with
    | none => writesOf rest
    | some w => if w ∈ writesOf rest then writesOf rest else w :: writesOf rest

/-- The heading WRITEs of a placer (R71): those of the first MINRUN slots of its queue that are not superseded. A slot that a
verify sent back to be placed again makes the WRITE that supplied it no heading WRITE: R71 and the command row of R61 leave that
open. DESIGN CHOICE, log entry 31. -/
def State.headingWrites (s : State) (st : Stream) : List (Port × Nat) := writesOf ((s.waitingSlots st).take s.minRun)

/-! ### The record wait list (R55) -/

/-- Grant a placer's request: it leaves the record wait list and builds its run; where it lacks another item it waits for
that one, without its records (R53, R55, R58, R72). DEDUCED, log entry 22. -/
def State.grantPlacer (s : State) (st : Stream) : State :=
  if s.wantsRun st && s.recordsCover st then (s.leaveRecordWait st).tryRun st else s

/-- Grant an acceptance's request (R54). -/
def State.grantAccept (s : State) (p : Port) (old : Nat) : State :=
  if s.map.available < 2 then s
  else
    match s.nextAccept p with
    | none => s.dropRecordRequest (.accept p old)
    | some x => (s.dropRecordRequest (.accept p old)).acceptSlot p x

/-- Grant a trim's request (R56): it leaves the record wait list and is applied; where it lacks another item it waits for
that one, without its records and without a limit (R57, R58, R132, R162). DESIGN CHOICE, log entry 22. -/
def State.grantTrim (s : State) (p : Port) (cmd : Nat) : State :=
  if (s.findTrim p cmd).isNone ∨ s.trimCovered p cmd then (s.dropRecordRequest (.trim p cmd)).tryTrim p cmd else s

/-- Go through the record wait list from the oldest request, granting those that the available count covers (R55). -/
def State.grantRecords (s : State) : List RecordRequest → State
  | [] => s
  | r :: rest =>
    if r ∈ s.map.recordWait then
      match r with
      | .placer st => (s.grantPlacer st).grantRecords rest
      | .accept p old => (s.grantAccept p old).grantRecords rest
      | .trim p cmd => (s.grantTrim p cmd).grantRecords rest
    else s.grantRecords rest

/-! ### Completions that depend on other blocks (R159, R160, R163, R165) -/

/-- The failed block of lowest index of a READ. -/
def lowestFailed : List (Nat × FailedBlock) → Option (Nat × FailedBlock)
  | [] => none
  | x :: rest =>
    match lowestFailed rest with
    | none => some x
    | some y => if x.1 ≤ y.1 then some x else some y

/-- The completion of a READ whose every block has been pushed or has failed (R159). -/
def readCompletion (staged unmapped pushed : Nat) (failed : List (Nat × FailedBlock)) : Completion :=
  match lowestFailed failed with
  | none => completedWith .done pushed (unmapped + staged * 2 ^ 32) 0
  | some (i, why) =>
    completedWith (if why = .unrecovered then .mediaError else .notReady) pushed (unmapped + staged * 2 ^ 32)
      (i + failed.length * 2 ^ 32)

/-- The completion that a RUNNING command has come to, if it has (R159, R160, R163, R165). -/
def State.completionOf (s : State) (p : Port) (c : Command) : Option Completion :=
  let n := c.record.count.toNat
  match c.work with
  | .read _ _ staged unmapped pushed failed =>
    if pushed + failed.length = n then some (readCompletion staged unmapped pushed failed) else none
  | .write _ accepted _ => if accepted = n ∧ s.padOpen (.command p c.id) = false then some (completed .done n) else none
  | .flush total journal =>
    match journal with
    | none => none
    | some ok =>
      if s.padOpen (.command p c.id) then none else some (completedWith (if ok then .done else .mediaError) 0 total 0)
  | .report _ _ entries => if entries = n then some (completed .done n) else none
  | .none => none
  | .trim _ => none
  | .checkpoint => none
  | .close => none

/-- A command, FINISHED if it has come to its completion. -/
def State.settleCommand (s : State) (p : Port) (c : Command) : Command :=
  if c.status = none then
    match s.completionOf p c with
    | none => c
    | some d => finishedCommand d c
  else c

/-- Commands of a port that have come to their completion finish. -/
def State.commandsReact (s : State) (p : Port) : State :=
  s.modPort p fun e => { e with list := e.list.map (s.settleCommand p) }

/-! ### The end of an event -/

/-- What the part does at the end of an event: acceptances that waited, the release tests, the placers, the commands, and the
Cleaner; and the placers and commands again for what the Cleaner did. DESIGN CHOICE, log entry 10. -/
def State.react (s : State) : State :=
  let s1 := (s.acceptReact s.map.recordWait).releaseTest.placersReact allStreams
  let s2 := s1.cleanerReact.placersReact allStreams
  let s3 := (s2.commandsReact .a).commandsReact .b
  (s3.modPort .a walkOn).modPort .b walkOn

end Sys2Proof.Machine
end

