-- ==== Sys2Proof/Machine/Commands.lean ====
section
/-! DEFINITION. Chapters 9 and 10: the tests at the taking of a command (R156), how each command begins its work, takeovers
and returns (R172 to R177), and the release of held commands (R157). -/

namespace Sys2Proof.Machine

/-! ### CONFIG WRITE and CONFIG CLOSE (R13 to R16, R168, R169) -/

/-- CONFIG WRITE of an item: set while the draft is EDITABLE, refused while it is CLOSING (R13, R168). -/
def State.beginConfigWrite (s : State) (p : Port) (id : Nat) (c : CommandRecord) : State :=
  if s.geo.status = .closing then s.finish p id (completed .refusedState 0)
  else
    match selector c.lbn with
    | none => s.finish p id (completed .badCommand 0)
    | some (item, index) =>
      let s1 : State := { s with geo := { s.geo with draft := draftSet s.geo.draft item index c.count.toNat } }
      s1.finish p id (completed .done 0)

/-- Issue the SYSTEM WRITE of a CONFIG CLOSE for its step (R15, R169): the empty checkpoint's body and header, then block 1,
then block 0. DESIGN CHOICE, log entry 18. -/
def State.issueCloseWrite (s : State) : State :=
  match s.recovery.close with
  | none => s
  | some w =>
    let g := w.record
    let bands := List.replicate (totalBands g) (bandImage emptyBand)
    let copy := SysBlock.geometry g (checkWordOf g)
    match w.step with
    | .awaitReady => s
    | .image cursor _ =>
      if cursor < imageBlocks g then
        let (index, n) := imageChunk g .first cursor
        let s1 := s.submit (systemWriteOp .closeWrite index (bodyBlocks g [] bands cursor n))
        { s1 with recovery := { s1.recovery with close := some { w with step := .image cursor n } } }
      else
        let h : ImageHeader :=
          { sequence := 1, check := checkWordOf g, watermark := 0, extents := 0, closeCounter := 0, firstUnreleased := 0,
            sum := imageSum g [] bands }
        let s1 := s.submit (systemWriteOp .closeWrite (imageBase g .first) [.header h])
        { s1 with recovery := { s1.recovery with close := some { w with step := .image cursor 1 } } }
    | .block1 => s.submit (systemWriteOp .closeWrite 1 [copy])
    | .block0 => s.submit (systemWriteOp .closeWrite 0 [copy])

/-- A CONFIG CLOSE under way moves to a step and issues its write. -/
def State.closeTo (s : State) (w : CloseWork) (step : CloseStep) : State :=
  { s with recovery := { s.recovery with close := some { w with step := step, reissues := 0 } } }.issueCloseWrite

/-- A CONFIG CLOSE ends without a record coming into force: the draft is EDITABLE again with its contents (R14 to R16). -/
def State.failClose (s : State) (p : Port) (id : Nat) (d : Completion) : State :=
  let s1 : State := { s with geo := { s.geo with status := .editable }, recovery := { s.recovery with close := none } }
  s1.finish p id d

/-- Check 21 against a cylinder count: the writes of R15 begin, or the close fails (R14, R16). -/
def State.closeCheck21 (s : State) (w : CloseWork) (cylinders : Nat) : State :=
  if check21 w.record cylinders then s.closeTo w (.image 1 0)
  else s.failClose w.port w.cmd (completedWith .geometryInvalid 0 21 0)

/-- CONFIG CLOSE at its taking in UNCONFIGURED (R14, R169). -/
def State.beginConfigClose (s : State) (p : Port) (id : Nat) : State :=
  if s.geo.status = .closing then s.finish p id (completed .refusedState 0)
  else
    match failingCheck s.geo.draft with
    | some n => s.finish p id (completedWith .geometryInvalid 0 n 0)
    | none =>
      let w : CloseWork := { port := p, cmd := id, record := draftRecord s.geo.draft, step := .awaitReady, reissues := 0 }
      let s1 : State := { s with geo := { s.geo with status := .closing }, recovery := { s.recovery with close := some w } }
      let s2 := s1.setWork p id .close
      match s.geo.cylinders with
      | none => s2
      | some n => s2.closeCheck21 w n

/-! ### READ (R158, R159) -/

/-- A READ has lookups left (R158), or a BAND REPORT has band records left to read (R165). -/
def lookupsLeft (c : Command) : Bool :=
  match c.status, c.work with
  | none, .read next _ _ _ _ _ => decide (next < c.record.count.toNat)
  | none, .report next _ _ => decide (next < c.record.count.toNat)
  | _, _ => false

/-- A READ's next block has been looked up, and counts as staged or unmapped as given. -/
def countLookup (staged unmapped : Nat) (c : Command) : Command :=
  match c.work with
  | .read next _ a b pushed failed => { c with work := .read (next + 1) false (a + staged) (b + unmapped) pushed failed }
  | _ => c

/-- A READ's staging lookup of its next block has answered NOT STAGED; the map lookup follows (R158). -/
def noteMissed (c : Command) : Command :=
  match c.work with
  | .read next _ a b pushed failed => { c with work := .read next true a b pushed failed }
  | _ => c

/-- The open run of a READ (R158). -/
def isOpenRun (p : Port) (id : Nat) (r : FormingRead) : Bool :=
  r.isOpen && decide (r.origin = .port p) && decide (r.command = id)

/-- Close the open run of a READ, if there is one: its READING slots are requested at this event (R158). -/
def State.closeRun (s : State) (p : Port) (id : Nat) : State :=
  match s.media.forming.find? (isOpenRun p id) with
  | none => s
  | some r =>
    let close (x : FormingRead) : FormingRead := if x.id = r.id then { x with isOpen := false } else x
    let s1 : State := { s with media := { s.media with forming := s.media.forming.map close } }
    s1.requestSlots .general (r.lbns.map fun x => .reading r.id p x)

/-- Start an open run with block `i` of a READ, of LBN `x` at an offset of a band: its read reference is taken (R43, R158). -/
def State.openRun (s : State) (p : Port) (id x i b o : Nat) : State :=
  let n := s.media.stamp
  let r : FormingRead :=
    { id := n, origin := .port p, command := id, band := b, first := o, lbns := [x], blocks := [i], slots := [], isOpen := true }
  let s1 := s.addRef b
  { s1 with media := { s1.media with forming := s1.media.forming ++ [r], stamp := n + 1 } }

/-- A MAPPED answer extends the open run (R158). -/
def extendsRun (track : Nat) (r : FormingRead) (b o : Nat) : Bool :=
  decide (r.band = b) && decide (o = r.first + r.lbns.length) && decide (o / track = r.first / track)
    && decide (r.lbns.length < Config.readRunLimit)

/-- A MAPPED answer for block `i` of a READ (R158): it extends the open run, or closes it and starts a new one. -/
def State.extendOrOpen (s : State) (p : Port) (id x i b o : Nat) : State :=
  match s.media.forming.find? (isOpenRun p id) with
  | none => s.openRun p id x i b o
  | some r =>
    if extendsRun (s.shape b).track r b o then
      let extend (y : FormingRead) : FormingRead :=
        if y.id = r.id then { y with lbns := y.lbns ++ [x], blocks := y.blocks ++ [i] } else y
      { s with media := { s.media with forming := s.media.forming.map extend } }
    else (s.closeRun p id).openRun p id x i b o

/-- A staged block of a READ (R158): its slot is pinned and it is pushed from that slot. -/
def State.readStaged (s : State) (p : Port) (c : Command) (i n : Nat) : State :=
  let data := ((s.slot n).map fun y => y.data).getD zeroBlock
  let s1 := ((s.closeRun p c.id).pinSlot n).modCommand p c.id (countLookup 1 0)
  s1.sendPush p c.id i c.record.pieces data (some n)

/-- An unmapped block of a READ (R158): it is pushed as zeros. -/
def State.readUnmapped (s : State) (p : Port) (c : Command) (i : Nat) : State :=
  ((s.closeRun p c.id).modCommand p c.id (countLookup 0 1)).sendPush p c.id i c.record.pieces zeroBlock none

/-- A mapped block of a READ (R158): it stands in the READ's open run, which the lookup of the last block closes. -/
def State.readMapped (s : State) (p : Port) (c : Command) (i b o : Nat) : State :=
  let s1 := (s.extendOrOpen p c.id (c.record.lbn.toNat + i) i b o).modCommand p c.id (countLookup 0 0)
  if i + 1 < c.record.count.toNat then s1 else s1.closeRun p c.id

/-- One lookup of a READ (R158): the staging lookup of its next block, or where that has answered NOT STAGED the map lookup. -/
def State.readLookup (s : State) (p : Port) (c : Command) : State :=
  match c.work with
  | .read i missed _ _ _ _ =>
    let x := c.record.lbn.toNat + i
    if missed then
      match s.lookup x with
      | none => s.readUnmapped p c i
      | some (b, o, _) => s.readMapped p c i b o
    else
      match s.indexed x with
      | some n => s.readStaged p c i n
      | none => s.modCommand p c.id noteMissed
  | _ => s

/-- Entries in one block of a BAND REPORT (R165). -/
def entriesPerReportBlock : Nat := 128

/-- A BAND REPORT has read one more band record. -/
def noteRead (read : List (Nat × BandRecord)) (c : Command) : Command :=
  match c.work with
  | .report next _ entries => { c with work := .report (next + 1) read entries }
  | _ => c

/-- A BAND REPORT reads its next band record as it stands, and pushes its block of entries when it is full or the last entry is
in it (R39, R165). -/
def State.reportRead (s : State) (p : Port) (c : Command) : State :=
  match c.work with
  | .report k read _ =>
    let b := c.record.lbn.toNat + k
    let read1 := read ++ ((s.band b).map fun r => (b, r)).toList
    if (k + 1) % entriesPerReportBlock = 0 ∨ k + 1 = c.record.count.toNat then
      (s.modCommand p c.id (noteRead [])).sendPush p c.id (k / entriesPerReportBlock) c.record.pieces
        (bandEntriesBlock 0 read1) none
    else s.modCommand p c.id (noteRead read1)
  | _ => s

/-- A READ makes its next lookup (R158), or a BAND REPORT reads its next band record (R165). -/
def State.readerStep (s : State) (p : Port) (c : Command) : State :=
  match c.work with
  | .report _ _ _ => s.reportRead p c
  | _ => s.readLookup p c

/-- The READs that have lookups left and the BAND REPORTs that have band records left: Port A's and Port B's, each in chain
order. -/
def State.readers (s : State) : List (Port × Command) :=
  ((s.port .a).list.filter lookupsLeft).map (fun c => (.a, c)) ++ ((s.port .b).list.filter lookupsLeft).map fun c => (.b, c)

/-- One lookup of one READ, or the read of one band record of one BAND REPORT, takes place. Where several have some left, the
one that `Config.lookupTurn` names for this choice makes it (R158, R165). DESIGN CHOICE, log entry 8. -/
def State.lookupTick (s : State) : State :=
  match s.readers with
  | [] => s
  | [x] => s.readerStep x.1 x.2
  | x :: rest =>
    let k := Config.lookupTurn s.staging.lookups % (rest.length + 1)
    let y := (x :: rest)[k]?.getD x
    let s1 : State := { s with staging := { s.staging with lookups := s.staging.lookups + 1 } }
    s1.readerStep y.1 y.2

/-- READ at its taking (R158): its lookups begin. -/
def State.beginRead (s : State) (p : Port) (id : Nat) : State := s.setWork p id (.read 0 false 0 0 0 [])

/-! ### WRITE, TRIM, FLUSH (R160, R162, R163) -/

/-- WRITE at its taking: the pull of its first block is asked for (R160). -/
def State.beginWrite (s : State) (p : Port) (id : Nat) : State := (s.setWork p id (.write 0 0 [])).requestNextPull p id

/-- TRIM at its taking: the range is handed to the Map Unit as one trim, which joins the record wait list at once where its records
are short (R56, R162). Its application is the row TRIM_APPLY: DEDUCED, log entry 22. -/
def State.beginTrim (s : State) (p : Port) (id : Nat) (c : CommandRecord) : State :=
  let t : TrimRequest :=
    { port := p, cmd := id, first := c.lbn.toNat, last := c.lbn.toNat + c.count.toNat - 1 }
  let s1 := s.setWork p id (.trim false)
  { s1 with map := { s1.map with trims := s1.map.trims ++ [t] } }.awaitTrim t

/-- The port streams a port owns (R163, R172). -/
def State.ownedStreams (s : State) (p : Port) : List Stream :=
  (if s.staging.owners.get p = p then groupStreams p else [])
    ++ (if s.staging.owners.get (otherPort p) = p then groupStreams (otherPort p) else [])

/-- Pad requests of a FLUSH on streams (R163, R80). -/
def State.requestPads (s : State) (owner : PadOwner) : List Stream → State
  | [] => s
  | st :: rest => (s.requestPad st owner (s.streamSet st)).requestPads owner rest

/-- FLUSH at its taking: pad requests on the port's streams, and a journal write asked for (R163). -/
def State.beginFlush (s : State) (p : Port) (id : Nat) : State :=
  let streams := s.ownedStreams p
  let total := ((streams.map s.streamSet).map fun l => l.length).sum
  ((s.setWork p id (.flush total none)).requestPads (.command p id) streams).requestJournal [.command p id]

/-! ### LOCATE and BAND REPORT (R164, R165) -/

/-- The result words of a LOCATE (R164, section 9.6). DESIGN CHOICE, log entry 25. -/
def State.locateResult (s : State) (x : Nat) : Nat × Nat :=
  if (s.indexed x).isSome then (1, 0)
  else
    match s.lookup x, s.geo.inForce with
    | some (b, o, _), some g =>
      match bandAddress g b o with
      | none => (2 + b * 2 ^ 20 + o * 2 ^ 40, 0)
      | some a => locateMapped b o a
    | _, _ => (0, 0)

/-- LOCATE at its taking (R164). -/
def State.beginLocate (s : State) (p : Port) (id : Nat) (c : CommandRecord) : State :=
  let r := s.locateResult c.lbn.toNat
  s.finish p id (completedWith .done 0 r.1 r.2)

/-- BAND REPORT at its taking: the reading of its band records begins (R165). -/
def State.beginReport (s : State) (p : Port) (id : Nat) : State := s.setWork p id (.report 0 [] 0)

/-! ### TAKEOVER and return (R172 to R177) -/

/-- The slots charged for a group: FILLING, GATHERED, WRITING and HELD slots of its streams (R175). -/
def State.groupCharge (s : State) (q : Port) : Nat :=
  (s.staging.slots.filter fun x =>
    match x.origin with
    | .port _ => false
    | .stream st => decide (streamGroup st = some q)).length

/-- Move the owner of a group to a port, with the charges of its slots (R62, R175, R177). -/
def State.moveGroup (s : State) (q new : Port) : State :=
  let old := s.staging.owners.get q
  let n := s.groupCharge q
  let charges := s.staging.charges
  let c1 := charges.set (portAccount old) (charges.get (portAccount old) - n)
  { s with staging := { s.staging with
      owners := s.staging.owners.set q new
      charges := c1.set (portAccount new) (c1.get (portAccount new) + n) } }

/-- A port whose TAKEOVER needs FORCE: RUNNING or SUSPENDED (R174). -/
def isWalking : Process → Bool
  | .running => true
  | .suspendedEnd => true
  | .suspendedNotOwned => true
  | .stopped => false
  | .halted => false

/-- A takeover takes effect (R175): the other port is torn down if it walks or has commands, its group changes owner, and a
forced takeover latches TAKEN OVER there. -/
def State.takeOver (s : State) (p : Port) (force : Bool) : State :=
  let q := otherPort p
  let e := s.port q
  let s1 := if isWalking e.process ∨ (e.process = .halted ∧ e.list ≠ []) then s.tearDown q else s
  let s2 := s1.moveGroup q p
  if force then s2.modPort q latchTakenOver else s2

/-- TAKEOVER at its taking (R167, R174). -/
def State.beginTakeover (s : State) (p : Port) (id : Nat) (c : CommandRecord) : State :=
  let force := forceBit c.flags
  if s.takeoverHeld p then s.finish p id (completed .done 0)
  else if isWalking (s.port (otherPort p)).process ∧ force = false then s.finish p id (completed .refusedState 0)
  else (s.takeOver p force).finish p id (completed .done 0)

/-- A WRITE of a taker names a stream of a group (R177). -/
def namesGroup (p group : Port) (c : Command) : Bool :=
  decide (c.opcode = 2) && decide (streamGroup (writeStream p c.record) = some group)

/-- A WRITE that is in progress and has blocks not yet accepted, with the blocks accepted (R177). -/
def unacceptedWrite (c : Command) : Option Nat :=
  match c.status, c.work with
  | none, .write _ accepted _ => if accepted < c.record.count.toNat then some accepted else none
  | _, _ => none

/-- End the taker's WRITEs to a group that returns (R177). -/
def State.endReturned (s : State) (q group : Port) : List Command → State
  | [] => s
  | c :: rest =>
    match unacceptedWrite c with
    | some accepted =>
      if namesGroup q group c then
        ((s.finish q c.id (completed .streamInvalid accepted)).abandonPulls q fun n => decide (n = c.id)).endReturned q group rest
      else s.endReturned q group rest
    | none => s.endReturned q group rest

/-- A group returns to its own port at a START of that port that takes effect in STOPPED (R177). -/
def State.returnGroup (s : State) (p : Port) : State :=
  let q := otherPort p
  if s.staging.owners.get p = q then (s.endReturned q p (s.port q).list).moveGroup p p else s

/-! ### The taking (R146, R156, R157) -/

/-- The user capacity and band count that the tests of R156 use; 0 while no record is in force. -/
def State.limits (s : State) : Nat × Nat :=
  match s.geo.inForce with
  | none => (0, 0)
  | some g => (g.userBlocks, totalBands g)

/-- A WRITE names a stream that its port may write (R156 test 7, R172). -/
def State.streamValid (s : State) (p : Port) (c : CommandRecord) : Bool :=
  if c.stream.toNat < 4 then decide (s.staging.owners.get p = p) else decide (s.staging.owners.get (otherPort p) = p)

/-- The outcomes of the tests of R156. -/
inductive Verdict where
  | held
  | finishes (st : Status)
  | begins
deriving DecidableEq, Repr

/-- The tests of R156 in their order. -/
def State.takeTests (s : State) (p : Port) (opcode : Nat) (c : CommandRecord) : Verdict :=
  let part := s.recovery.part
  let (user, bands) := s.limits
  if part = .faulted then .finishes .partFault
  else if (part = .loading ∨ part = .rebuilding) ∧ opcode ≠ 0 then .held
  else if 10 < opcode then .finishes .badCommand
  else if part = .unconfigured ∧ opcode ≠ 0 ∧ opcode ≠ 9 ∧ opcode ≠ 10 then .finishes .notConfigured
  else if part = .ready ∧ (opcode = 9 ∨ opcode = 10) then .finishes .refusedState
  else if !formatOk opcode user c then .finishes .badCommand
  else if opcode = 2 ∧ s.streamValid p c = false then .finishes .streamInvalid
  else if rangeExceeded opcode user bands c then .finishes .range
  else .begins

/-- A command that passed the tests begins its work (R156). -/
def State.begin (s : State) (p : Port) (id opcode : Nat) (c : CommandRecord) : State :=
  match opcode with
  | 0 => s.finish p id (completed .done 0)
  | 1 => s.beginRead p id
  | 2 => s.beginWrite p id
  | 3 => s.beginTrim p id c
  | 4 => s.beginFlush p id
  | 5 => s.beginLocate p id c
  | 6 => s.beginReport p id
  | 7 => (s.setWork p id .checkpoint).requestCheckpoint [(p, id)]
  | 8 => s.beginTakeover p id c
  | 9 => s.beginConfigWrite p id c
  | 10 => s.beginConfigClose p id
  | _ => s

/-- A command in the list is put to the tests of R156, at its taking or at its release. -/
def State.decideCommand (s : State) (p : Port) (id opcode : Nat) (c : CommandRecord) : State :=
  match s.takeTests p opcode c with
  | .held => s.modCommand p id fun x => { x with held := true }
  | .finishes st => s.finish p id (completed st 0)
  | .begins => (s.modCommand p id fun x => { x with held := false }).begin p id opcode c

/-- The taking of a command whose first record is at an address (R146, R156). The list never exceeds 32 (R145). -/
def State.takeCommand (s : State) (p : Port) (opcode : Nat) (first : Address) (c : CommandRecord) : State :=
  let id := (s.port p).nextId
  if (s.port p).list.length < Config.inFlightLimit then
    ((s.modPort p (takenPort opcode c first)).decideCommand p id opcode c).react
  else s

/-- The record at which a port may take a command: RUNNING, no stop requested and no teardown, fewer than 32 commands
(R146). -/
def takingAt (e : PortEngine) : Option Address :=
  match e.position with
  | .atRecord a =>
    if e.process = .running ∧ e.stopRequested = false ∧ e.teardown = false ∧ e.list.length < Config.inFlightLimit then some a
    else none
  | .none => none
  | .afterRecord _ => none

/-- A command of the table is taken at the port's position, where one can be. DESIGN CHOICE, log entry 2. -/
def State.takeAtPosition (s : State) (p : Port) (opcode : Nat) (c : CommandRecord) : State :=
  match takingAt (s.port p) with
  | none => s
  | some a => s.takeCommand p opcode a c

/-- A record read in RUNNING is examined (R146): `a` is its address and `w` its words. -/
def State.examineRecord (s : State) (p : Port) (a : Address) (w : RecordWords) : State :=
  let f := recordFlags w
  if !ownBit f then s.modPort p suspendNotOwned
  else if contBit f then s.modPort p chainFormatHalt
  else if recordPieces w ≤ 2 then s.takeCommand p (recordOpcode w) a (commandOf w (commandPieces w) a w.w0)
  else if w.w0 ≠ 0 ∧ aligned64 w.w0 then s.modPort p fun e => { e with walk := .continuation w [w.w3, w.w4] w.w0 }
  else s.modPort p chainFormatHalt

/-- A continuation record read at address `a` (R146). -/
def State.examineContinuation (s : State) (p : Port) (first : Address) (head : RecordWords) (pieces : List Word64)
    (a : Address) (w : RecordWords) : State :=
  let all := pieces ++ continuationPieces w
  if !contBit (recordFlags w) then s.modPort p chainFormatHalt
  else if recordPieces head ≤ all.length then
    s.takeCommand p (recordOpcode head) first (commandOf head (all.take (recordPieces head)) a w.w0)
  else if w.w0 ≠ 0 ∧ aligned64 w.w0 then s.modPort p fun e => { e with walk := .continuation head all w.w0 }
  else s.modPort p chainFormatHalt

/-! ### Release (R157) -/

/-- Put the held commands of a list to the tests again, in chain order (R157). -/
def State.releaseCommands (s : State) (p : Port) : List Command → State
  | [] => s
  | c :: rest =>
    if c.held ∧ c.status = none then (s.decideCommand p c.id c.opcode c.record).releaseCommands p rest
    else s.releaseCommands p rest

/-- The release of both ports' held commands, Port A's first (R157). DESIGN CHOICE, log entry 7. -/
def State.releaseHeld (s : State) : State :=
  let s1 := s.releaseCommands .a (s.port .a).list
  s1.releaseCommands .b (s1.port .b).list

end Sys2Proof.Machine
end

