-- ==== Sys2Proof/Machine/Recovery.lean ====
section
/-! DEFINITION. Chapter 7: the load (R124), the end of checkpoints and journal writes (R130 to R133), the end of a CONFIG
CLOSE (R15, R169), and the rebuild (R134 to R139). -/

namespace Sys2Proof.Machine

/-- Change the Recovery Unit. -/
def State.modRecovery (s : State) (f : Recovery → Recovery) : State := { s with recovery := f s.recovery }

/-! ### A record comes into force; READY (R3 to R5, R15, R19, R40, R61, R105, R139) -/

/-- A record comes into force: its check word is computed, and the blocks that size their tables from it create them. -/
def State.comeIntoForce (s : State) (g : Geometry) : State :=
  let s1 : State := { s with geo := { s.geo with inForce := some g, checkWord := checkWordOf g }
                             map := { MapUnit.reset with freeCount := g.mapCap } }
  (s1.createBands g).createSlots g

/-- The RETIRED bands with live blocks, marked AWAITING (R105). -/
def retiredAtReady : Nat → List BandRecord → List (Nat × RetiredMark)
  | _, [] => []
  | b, r :: rest =>
    if r.state = .retired ∧ 0 < r.live then (b, .awaiting) :: retiredAtReady (b + 1) rest else retiredAtReady (b + 1) rest

/-- The part enters READY (R139): the Cleaner takes up its retired list and mode, and held commands are released (R157). -/
def State.enterReady (s : State) : State :=
  let s1 := s.modRecovery fun r => { r with part := .ready, rebuild := none }
  let s2 := s1.modCleaner fun c => { c with retired := retiredAtReady 0 s1.bands.records }
  (s2.modCleaner fun c => { c with mode := s2.modeNow }).releaseHeld

/-! ### The end of a checkpoint (R131) -/

/-- Report a checkpoint to the CHECKPOINT commands of its joined list (R131, R166). -/
def State.reportCheckpoint (s : State) (ok : Bool) : State :=
  s.finishAll (completedWith (if ok then .done else .mediaError) 0 s.recovery.checkpoint.watermark s.recovery.sequence)
    s.recovery.joined

/-- A checkpoint ends: its commands finish, a further checkpoint starts where one is due, and the rebuild's checkpoint makes
the part READY (R128, R131, R132, R139). -/
def State.endCheckpoint (s : State) (ok : Bool) : State :=
  let s1 := s.reportCheckpoint ok
  let due := s.recovery.due || (!ok && s.recovery.journalFull)
  let s2 := s1.modRecovery fun r => { r with checkpoint := { r.checkpoint with state := .idle }, joined := [] }
  let s3 := if due then s2.startCheckpoint s2.recovery.next else s2
  if s.recovery.part = .rebuilding then s3.enterReady else s3

/-- The entry to FINISHING (R60, R131): the pending-apply list is applied. On success the image becomes the last one and the
records appended before the watermark are released and held RETIRE records appended (R132); the checkpoint's end then waits for
the unwritten records that remain, in a journal write. -/
def State.finishCheckpoint (s : State) (ok : Bool) : State :=
  let c := s.recovery.checkpoint
  let s1 := s.finishWritePhase.modRecovery fun r => { r with checkpoint := { c with state := .finishing } }
  if !ok then s1.endCheckpoint false
  else
    let s2 := s1.modRecovery fun r =>
      { r with lastImage := some c.slot, sequence := r.sequence + 1, firstUnreleased := c.unreleased
               journal := r.journal.filter fun e => decide (c.unreleased ≤ e.record.sequence) }
    let s3 := (s2.appendHeld s2.recovery.heldRetires).modRecovery fun r =>
      { r with checkpoint := { r.checkpoint with finishUpTo := r.nextSequence } }
    if s3.recovery.unwritten = [] then s3.endCheckpoint true else s3.requestJournal [.checkpoint]

/-! ### System write outcomes (R130, R133, R169) -/

/-- How a SYSTEM WRITE completed (R97, R93). -/
inductive WriteOutcome where
  | good
  | fault
  | notReady
deriving DecidableEq, Repr

/-- A SYSTEM WRITE of the checkpoint completes (R130). -/
def State.checkpointWriteDone (s : State) (o : WriteOutcome) : State :=
  let c := s.recovery.checkpoint
  match o, s.geo.inForce with
  | .notReady, _ => s.issueCheckpointWrite
  | .fault, _ =>
    if c.reissues < Config.reissueLimit then
      (s.modRecovery fun r => { r with checkpoint := { c with reissues := c.reissues + 1 } }).issueCheckpointWrite
    else s.finishCheckpoint false
  | .good, some g =>
    if c.cursor < imageBlocks g then
      (s.modRecovery fun r => { r with checkpoint := { c with cursor := c.cursor + c.count, reissues := 0 } }).issueCheckpointWrite
    else s.finishCheckpoint true
  | .good, none => s

/-- The requesters of a journal write include the checkpoint's finish. -/
def finishWaits (rs : List JournalRequester) : Bool := rs.any fun r => decide (r = .checkpoint)

/-- The journal write state is IDLE again; where the write succeeded, the records it took are written (R133). -/
def Recovery.closeJournalWrite (r : Recovery) (ok : Bool) : Recovery :=
  { r with journalWrite := JournalWrite.reset
           journal := r.journal.map fun e =>
             if ok ∧ e.record.sequence ∈ r.journalWrite.taken then { e with written := true } else e }

/-- The journal write ends; one that succeeded has the Band Table Unit make its release test (R133, R35). -/
def State.closeJournalWrite (s : State) (ok : Bool) : State :=
  let s1 := s.modRecovery fun r => r.closeJournalWrite ok
  { s1 with bands := { s1.bands with retest := s1.bands.retest || (ok && s1.bands.release.isSome) } }

/-- The records that a checkpoint's end waits for have been written (R131). -/
def Recovery.finishMet (r : Recovery) : Bool :=
  r.unwritten.all fun e => decide (r.checkpoint.finishUpTo ≤ e.record.sequence)

/-- A journal write ends (R133): its requesters are answered, and a further write starts where one was asked for. A checkpoint in
FINISHING ends when the records that it waits for have been written, or with the write that it asked for, whatever its outcome
(R131); the failure of a write begun before does not end it: DEDUCED, log entry 15. Where a checkpoint's finish has released
all that was unwritten, the further write is no write, and a DURABLE TRIM or a FLUSH that asked for it has its success here, at the
end of the earlier write, whatever that write's outcome: R162, R163 and R133 name no finish for it. DESIGN CHOICE, log entry 15. -/
def State.endJournalWrite (s : State) (ok : Bool) : State :=
  let w := s.recovery.journalWrite
  let s1 := s.closeJournalWrite ok
  let s2 := s1.answerJournal ok w.requesters
  let finishing := decide (s.recovery.checkpoint.state = .finishing)
  let ended := finishing && (finishWaits w.requesters || s1.recovery.finishMet)
  let further := if ended then w.furtherRequesters.filter fun x => decide (x ≠ .checkpoint) else w.furtherRequesters
  let s3 := if w.further then s2.requestJournal further else s2
  if ended then s3.endCheckpoint true else s3

/-- In FAULTED a journal write ends with its SYSTEM WRITE in flight (R125): its records are written where that was its last and
completed GOOD. DEDUCED, log entry 15. -/
def State.stopJournalWrite (s : State) (good : Bool) : State :=
  s.closeJournalWrite (good && decide (s.recovery.journalWrite.blocks.length ≤ 1))

/-- A SYSTEM WRITE of the journal completes (R133). -/
def State.journalWriteDone (s : State) (o : WriteOutcome) : State :=
  let w := s.recovery.journalWrite
  match o with
  | .notReady => s.issueJournalWrite
  | .fault =>
    if w.reissues < Config.reissueLimit then
      (s.modRecovery fun r => { r with journalWrite := { w with reissues := w.reissues + 1 } }).issueJournalWrite
    else s.endJournalWrite false
  | .good =>
    match w.blocks with
    | _ :: k :: rest =>
      (s.modRecovery fun r => { r with journalWrite := { w with blocks := k :: rest, reissues := 0 } }).issueJournalWrite
    | [_] => s.endJournalWrite true
    | [] => s.endJournalWrite true

/-- Every write of a CONFIG CLOSE has completed (R15, R134, R169): the record comes into force, the rebuild is complete at
once, and the close finishes DONE at the READY event. -/
def State.commitClose (s : State) (w : CloseWork) : State :=
  let g := w.record
  let s1 : State := { s with geo := { s.geo with draft := [], status := .editable } }
  let s2 := (s1.comeIntoForce g).modRecovery fun r =>
    { r with close := none, lastImage := some .first, sequence := 1, part := .rebuilding }
  s2.enterReady.finish w.port w.cmd (completedWith .done 0 (totalBands g) (systemRequired g))

/-- The system block index of the write a CONFIG CLOSE has outstanding (R169). -/
def closeIndex (w : CloseWork) : Nat :=
  match w.step with
  | .awaitReady => 0
  | .image cursor _ =>
    if cursor < imageBlocks w.record then imageBase w.record .first + cursor else imageBase w.record .first
  | .block1 => 1
  | .block0 => 0

/-- A SYSTEM WRITE of a CONFIG CLOSE completes (R15, R169). -/
def State.closeWriteDone (s : State) (o : WriteOutcome) : State :=
  match s.recovery.close with
  | none => s
  | some w =>
    match o with
    | .notReady => s.issueCloseWrite
    | .fault =>
      if w.reissues < Config.reissueLimit then
        (s.modRecovery fun r => { r with close := some { w with reissues := w.reissues + 1 } }).issueCloseWrite
      else s.failClose w.port w.cmd (completedWith .mediaError 0 (closeIndex w) 0)
    | .good =>
      match w.step with
      | .awaitReady => s
      | .image cursor n => if cursor < imageBlocks w.record then s.closeTo w (.image (cursor + n) 0) else s.closeTo w .block1
      | .block1 => s.closeTo w .block0
      | .block0 => s.commitClose w

/-- A SYSTEM WRITE completes to the Recovery Unit (R97). In FAULTED a journal write ends with it, and nothing else follows
(R125). -/
def State.systemWriteDone (s : State) (op : MediaOp) (o : WriteOutcome) : State :=
  if s.recovery.part = .faulted then
    if op.task = .journalWrite then s.stopJournalWrite (decide (o = .good)) else s
  else
    match op.task with
    | .checkpointWrite => s.checkpointWriteDone o
    | .journalWrite => s.journalWriteDone o
    | .closeWrite => s.closeWriteDone o
    | .rewriteCopy => s
    | .loadGeometry _ => s
    | .rebuildRead => s
    | .none => s

/-! ### The rebuild's records (R134 to R138) -/

/-- Change the rebuild's progress. -/
def State.modRebuild (s : State) (f : Rebuild → Rebuild) : State := s.modRecovery fun r => { r with rebuild := r.rebuild.map f }

/-- The rebuild before its first read. -/
def Rebuild.start : Rebuild :=
  { step := .header .first, headers := [], header := none, cursor := 0, extents := [], bands := [], sum := 0, candidates := [],
    todo := [], lastRun := 0, above := 0, sweep := [] }

/-- The band record of an image (R134): no owner, read references or suspect window. -/
def loadedBand (b : BandImage) : BandRecord :=
  { state := b.state, wp := b.wp, done := b.done, live := b.live, owner := none, closeNumber := b.closeNumber,
    footer := b.footer, faults := b.faults, refs := 0, suspect := none }

/-- The number of EMPTY records (R18). -/
def emptyRecords (rs : List BandRecord) : Nat := (rs.filter fun r => decide (r.state = .empty)).length

/-- The watermark N0 of the chosen image. -/
def Rebuild.n0 (r : Rebuild) : Nat := (r.header.map fun h => h.watermark).getD 0

/-- A rebuild's read of blocks of a band (section 7.5). -/
def State.rebuildRead (s : State) (band first count : Nat) : State := s.submit (rebuildReadOp band first count)

/-- A rebuild's read of system blocks. -/
def State.rebuildSystemRead (s : State) (index count : Nat) : State := s.submit (systemReadOp .rebuildRead index count)

/-- The step of the rebuild. -/
def State.setStep (s : State) (x : RebuildStep) : State := s.modRebuild fun r => { r with step := x }

/-! ### Candidates (R135) -/

/-- The run number of a block's tag, where it has a valid tag. -/
def State.tagRun (s : State) (m : Option MediaBlock) : Option Nat := (m.bind s.validTag).map fun e => e.run

/-- The run number of a tag that is N0 or above. -/
def tagFrom (n0 : Nat) (t : Option Nat) : Option Nat := t.bind fun n => if n0 ≤ n then some n else none

/-- One above a run number read, and 0 where none was read (R139). -/
def runAbove (t : Option Nat) : Nat := (t.map fun n => n + 1).getD 0

/-- Note a run number read (R139). -/
def noteRun (t : Option Nat) (r : Rebuild) : Rebuild := { r with above := max r.above (runAbove t) }

/-- A candidate whose contents are still to be read. -/
def newCandidate (band start floor : Nat) : Candidate :=
  { band := band, start := start, floor := floor, footerUsed := false, taken := [], last := none }

/-- The bands from `b` on whose offset 0 tag is read: every band that is not RETIRED (R135). -/
def nextTagBand : Nat → List BandRecord → Option Nat
  | _, [] => none
  | b, r :: rest => if r.state = .retired then nextTagBand (b + 1) rest else some b

/-- What the tag at the first offset of a track of a band says (R135): a candidate, a further track to read, or neither. -/
inductive TagVerdict where
  | candidate (c : Candidate)
  | nextTrack
  | no
deriving DecidableEq, Repr

/-- The table of R135 for one tag read. -/
def tagVerdict (sh : BandShape) (n0 band track : Nat) (r : BandRecord) (t : Option Nat) : TagVerdict :=
  match tagFrom n0 t with
  | some n => .candidate (newCandidate band 0 n)
  | none =>
    if r.state = .opened then .candidate (newCandidate band r.done n0)
    else if (track + 1) * sh.track < sh.capacity then .nextTrack
    else .no

/-! ### What a candidate holds (R136) -/

/-- The footer of a candidate is used: all its blocks are read, are footer blocks, and carry run numbers at or above the
floor. -/
def State.footerUsable (s : State) (floor : Nat) (blocks : List (Option MediaBlock)) : Bool :=
  blocks.all fun m => (tagFrom floor (s.tagRun m)).isSome && (footerEntries m).isSome

/-- The entries of footer blocks in order. -/
def footerContents (blocks : List (Option MediaBlock)) : List Entry :=
  (blocks.map fun m => (footerEntries m).getD []).flatten

/-- One above the highest run number of footer blocks and their entries; NONE entries hold none (R139, R75). -/
def State.footerAbove (s : State) (blocks : List (Option MediaBlock)) : Nat :=
  let tags := blocks.map fun m => runAbove (s.tagRun m)
  let entries := (footerContents blocks).map fun e => if e.kind = .none then 0 else e.run + 1
  (tags ++ entries).foldl max 0

/-- The highest offset whose entry is not NONE. -/
def lastEntry : List (Nat × Entry) → Option Nat
  | [] => none
  | e :: rest =>
    match lastEntry rest with
    | some o => some o
    | none => if e.2.kind = .none then none else some e.1

/-- The last written offset of a candidate (R136). -/
def lastWritten (c : Candidate) : Option Nat :=
  match lastEntry c.taken with
  | some o => some o
  | none => if c.start = 0 then none else some (c.start - 1)

/-- A candidate read from its footer (R136). -/
def fromFooter (capacity : Nat) (es : List Entry) (c : Candidate) : Candidate :=
  let c1 := { c with footerUsed := true
                     taken := (entriesAt 0 es).filter (fun e => decide (c.start ≤ e.1) && decide (e.1 < capacity)) }
  { c1 with last := lastWritten c1 }

/-- How far a tag read went: the entries taken, the run number of the last block taken, and why it stopped (none: at the end
of the blocks read). -/
structure TagRead where
  taken : List (Nat × Entry)
  lastRun : Nat
  stop : Option (Nat × Bool)
deriving DecidableEq, Repr

/-- Take the blocks of the fill from offset `o` on, up to one that is not of the fill (stop false) or unrecovered (stop
true) (R136). -/
def State.takeFill (s : State) (floor : Nat) : Nat → Nat → List (Option MediaBlock) → TagRead
  | _, last, [] => { taken := [], lastRun := last, stop := none }
  | o, last, none :: _ => { taken := [], lastRun := last, stop := some (o, true) }
  | o, last, some m :: rest =>
    match s.validTag m with
    | none => { taken := [], lastRun := last, stop := some (o, false) }
    | some e =>
      if floor ≤ e.run ∧ last ≤ e.run then
        let r := s.takeFill floor (o + 1) e.run rest
        { r with taken := (o, e) :: r.taken }
      else { taken := [], lastRun := last, stop := some (o, false) }

/-- One above the highest run number of the valid tags of blocks (R139). -/
def State.tagsAbove (s : State) (blocks : List (Option MediaBlock)) : Nat :=
  (blocks.map fun m => runAbove (s.tagRun m)).foldl max 0

/-! ### Application (R137) -/

/-- One thing to apply: an item of a candidate, or a TRIM of the journal. -/
inductive ReplayItem where
  | place (band offset : Nat) (e : Entry)
  | trim (first count run : Nat)
deriving DecidableEq, Repr

/-- The order of application: run number, then offset. -/
def replayKey : ReplayItem → Nat × Nat
  | .place _ o e => (e.run, o)
  | .trim _ _ n => (n, 0)

/-- The items of a candidate. -/
def candidateItems (c : Candidate) : List ReplayItem :=
  c.taken.filterMap fun e => if e.2.kind = .none then none else some (.place c.band e.1 e.2)

/-- The TRIM records of the journal with a run number of N0 or above. -/
def journalItems (n0 : Nat) (j : List JournalEntry) : List ReplayItem :=
  j.filterMap fun e =>
    match e.record.kind with
    | .trim f n run => if n0 ≤ run then some (.trim f n run) else none
    | .retire _ => none

/-- Put one LBN at a place (R137). Where the insertion would need a record and none is free, the LBN keeps the place it had. That
the records are counted after the removal of the LBN's own place is DEDUCED, log entry 17. -/
def replayInsert (mapCap : Nat) (t : List Extent) (lbn band o : Nat) : List Extent :=
  let t0 := removeRange lbn lbn t
  let t1 := insertPiece ⟨lbn, 1, band, o⟩ t0
  if t0.length < t1.length ∧ freeRecords mapCap t0 = 0 then t else t1

/-- Apply one item to the map (R137). DEDUCED, log entry 30. A TRIM that splits a record is applied whatever the free record
count. DESIGN CHOICE, log entry 17. -/
def replay (mapCap : Nat) (t : List Extent) : ReplayItem → List Extent
  | .trim f n _ => removeRange f (f + n - 1) t
  | .place b o e =>
    match e.kind, e.source with
    | .host, _ => replayInsert mapCap t e.lbn b o
    | .relocated, some (sb, so) => if mapsTo t e.lbn sb so then replayInsert mapCap t e.lbn b o else t
    | .relocated, none => t
    | .pad, _ => t
    | .none, _ => t

/-- The map after the gathered items and trims (R137). -/
def replayAll (mapCap : Nat) (items : List ReplayItem) (t : List Extent) : List Extent :=
  (sortBy replayKey items).foldl (replay mapCap) t

/-! ### The sweep and the band records (R138, R38) -/

/-- The places an extent gives its LBNs: LBN, band and offset. -/
def extentPlaces (e : Extent) : List (Nat × Nat × Nat) := (countFrom 0 e.length).map fun i => (e.first + i, e.band, e.offset + i)

/-- What the sweep finds at one referenced place: sound, to be removed, or its tag still to be read (R138). -/
inductive SweepVerdict where
  | sound
  | remove
  | readTag
deriving DecidableEq, Repr

/-- An entry that names an LBN. -/
def namesLbn (e : Entry) (x : Nat) : Bool := (entryCandidate 0 e).any fun c => decide (c.2 = x)

/-- The sweep of one place (R138). -/
def sweepPlace (cs : List Candidate) (x : Nat × Nat × Nat) : SweepVerdict :=
  match cs.find? fun c => decide (c.band = x.2.1) && decide (c.start ≤ x.2.2) with
  | none => .sound
  | some c =>
    match c.taken.find? fun e => decide (e.1 = x.2.2) with
    | none => .readTag
    | some e => if namesLbn e.2 x.1 then .sound else .remove

/-- Remove LBNs from a map one by one (R138, R45). -/
def removeLbns : List Nat → List Extent → List Extent
  | [], t => t
  | x :: rest, t => removeLbns rest (removeRange x x t)

/-- The band record of a candidate (R38): FULL with its footer, FULL closed short at the end of the track of its last
written offset, or EMPTY. A candidate made FULL takes the close counter's value. A candidate whose footer is used but holds
NONE entries alone holds no data (R136): it is EMPTY, and takes no close number. DESIGN CHOICE, log entry 17. -/
def candidateBand (sh : BandShape) (counter : Word32) (r : BandRecord) (c : Candidate) : BandRecord :=
  match c.last with
  | none => emptyBand
  | some o =>
    if c.footerUsed then
      { r with state := .full, wp := sh.size, done := sh.size, owner := none, closeNumber := some counter, footer := true,
               faults := 0 }
    else
      let wp := (o / sh.track + 1) * sh.track
      { r with state := .full, wp := wp, done := wp, owner := none, closeNumber := some counter, footer := false, faults := 0 }

/-- Set the candidates' records in ascending band number (R38, R138). The close counter rises by 1 for each candidate with a last
written offset, and for no other. DESIGN CHOICE, log entry 17. -/
def State.setCandidates (s : State) : List Candidate → State
  | [] => s
  | c :: rest =>
    let n := s.bands.closeCounter
    let s1 := s.modBand c.band fun r => candidateBand (s.shape c.band) n r c
    let s2 : State := if c.last.isSome then { s1 with bands := { s1.bands with closeCounter := n + 1 } } else s1
    s2.setCandidates rest

/-- CLEANING bands that are no candidates become FULL (R38). -/
def cleaningToFull (cs : List Candidate) : Nat → List BandRecord → List BandRecord
  | _, [] => []
  | b, r :: rest =>
    (if r.state = .cleaning ∧ (cs.any fun c => decide (c.band = b)) = false then { r with state := .full } else r)
      :: cleaningToFull cs (b + 1) rest

/-- The bands that RETIRE records name become RETIRED (R138). A candidate among them gives its close number back, and has no
footer. The records are taken in the order of their journal sequence, which decides whether the close counter steps back past two
candidates with consecutive close numbers or past one: DESIGN CHOICE, log entry 17. -/
def State.retireNamed (s : State) (cs : List Candidate) : List JournalEntry → State
  | [] => s
  | e :: rest =>
    match e.record.kind with
    | .trim _ _ _ => s.retireNamed cs rest
    | .retire b =>
      if cs.any fun c => decide (c.band = b) then
        let n := (s.band b).bind fun r => r.closeNumber
        let back : Bool := decide (n = some (s.bands.closeCounter - 1))
        let s1 := s.modBand b fun r => { r with state := .retired, footer := false, closeNumber := none }
        let s2 : State := if back then { s1 with bands := { s1.bands with closeCounter := s1.bands.closeCounter - 1 } } else s1
        s2.retireNamed cs rest
      else (s.modBand b fun r => { r with state := .retired }).retireNamed cs rest

/-- The live count of a band in a map (R138). -/
def liveIn (t : List Extent) (b : Nat) : Nat := ((t.filter fun e => decide (e.band = b)).map fun e => e.length).sum

/-- Live counts recomputed, and FULL bands without live blocks EMPTY (R38, R138). -/
def recountBands (t : List Extent) : Nat → List BandRecord → List BandRecord
  | _, [] => []
  | b, r :: rest =>
    let live := liveIn t b
    (if r.state = .full ∧ live = 0 then emptyBand else { r with live := live }) :: recountBands t (b + 1) rest

/-- The bands step of the rebuild (R38, R138). -/
def State.setBands (s : State) (cs : List Candidate) : State :=
  let s1 : State := { s with bands := { s.bands with records := cleaningToFull cs 0 s.bands.records } }
  let s2 := (s1.setCandidates cs).retireNamed cs s.recovery.journal
  let records := recountBands s2.map.table 0 s2.bands.records
  { s2 with bands := { s2.bands with records := records, emptyCount := emptyRecords records, openWait := [] } }

/-- One above the highest run number of TRIM records (R139). -/
def recordsAbove (rs : List JournalRecord) : Nat :=
  (rs.map fun x =>
    match x.kind with
    | .trim _ _ run => run + 1
    | .retire _ => 0).foldl max 0

/-- One above the highest run number of the journal's TRIM records (R139). -/
def journalAbove (j : List JournalEntry) : Nat := recordsAbove (j.map fun e => e.record)

/-- The end of the rebuild (R38, R138, R139): the band records and the run counter are set, and its checkpoint is requested. -/
def State.endRebuild (s : State) (r : Rebuild) : State :=
  let s1 := s.setBands r.candidates
  let counter := max r.n0 (max r.above (journalAbove s.recovery.journal))
  let s2 : State := { s1 with map := { s1.map with runCounter := counter, reserved := 0 } }
  (s2.setStep .checkpoint).requestCheckpoint []

/-- Go on with the sweep's tag reads, or end the rebuild (R138). -/
def State.continueSweep (s : State) (r : Rebuild) : State :=
  match r.sweep with
  | [] => s.endRebuild r
  | (_, b, o) :: _ => (s.setStep .sweep).rebuildRead b o 1

/-- Apply the gathered items and trims, and begin the sweep (R137, R138). A removal that splits a record is made whatever the free
record count. DESIGN CHOICE, log entry 17. -/
def State.applyRebuild (s : State) (r : Rebuild) : State :=
  let cap := s.mapCap
  let items := (r.candidates.map candidateItems).flatten ++ journalItems r.n0 s.recovery.journal
  let table := replayAll cap items s.map.table
  let places := (table.map extentPlaces).flatten
  let gone := (places.filter fun x => decide (sweepPlace r.candidates x = .remove)).map fun x => x.1
  let swept := removeLbns gone table
  let r1 := { r with sweep := places.filter fun x => decide (sweepPlace r.candidates x = .readTag) }
  let s1 : State := { s with map := { s.map with table := swept, freeCount := freeRecords cap swept } }
  (s1.modRebuild fun _ => r1).continueSweep r1

/-! ### The rebuild's reads (R134 to R138) -/

/-- Read on in the candidate being read: tags from an offset, at most to the end of its track and C(z), and one block while
the rebuild looks for the fill at a track's first offset (R136). -/
def State.readTags (s : State) (c : Candidate) (offset : Nat) (hopping : Bool) : State :=
  let sh := s.shape c.band
  (s.setStep (.tags offset hopping)).rebuildRead c.band offset (if hopping then 1 else runRoom sh offset)

/-- Begin the next candidate with its footer, or apply what was gathered (R136, R137). -/
def State.nextCandidate (s : State) (r : Rebuild) : State :=
  match r.todo with
  | [] => s.applyRebuild r
  | c :: _ =>
    let sh := s.shape c.band
    ((s.modRebuild fun _ => { r with step := .footer, lastRun := 0 })).rebuildRead c.band sh.capacity (sh.size - sh.capacity)

/-- A candidate is read: it joins the candidates, which stand in ascending band number (R135, R136). -/
def State.candidateDone (s : State) (r : Rebuild) (c : Candidate) : State :=
  let r1 := { r with candidates := r.candidates ++ [c], todo := r.todo.drop 1 }
  (s.modRebuild fun _ => r1).nextCandidate r1

/-- The tags of a candidate end (R136). -/
def State.tagsEnd (s : State) (r : Rebuild) (c : Candidate) : State := s.candidateDone r { c with last := lastWritten c }

/-- Look for the fill at the first offset of the track after one, while it lies below C(z) (R136). DEDUCED, log entry 17. -/
def State.hop (s : State) (r : Rebuild) (c : Candidate) (offset : Nat) : State :=
  let sh := s.shape c.band
  let next := (offset / sh.track + 1) * sh.track
  if next < sh.capacity then s.readTags c next true else s.tagsEnd r c

/-- Read the tag at the first offset of a track of the next band from `b` on, or begin with the candidates (R135). -/
def State.readStartTag (s : State) (r : Rebuild) (b : Nat) : State :=
  match nextTagBand b (s.bands.records.drop b) with
  | none => s.nextCandidate r
  | some x => ((s.modRebuild fun _ => r).setStep (.startTag x 0)).rebuildRead x 0 1

/-- The tag at a track's first offset of a band has been read (R135). -/
def State.startTagDone (s : State) (r : Rebuild) (b track : Nat) (m : Option MediaBlock) : State :=
  let t := s.tagRun m
  let r1 := noteRun t r
  match s.band b with
  | none => s.readStartTag r1 (b + 1)
  | some rec =>
    match tagVerdict (s.shape b) r.n0 b track rec t with
    | .candidate c => s.readStartTag { r1 with todo := r1.todo ++ [c] } (b + 1)
    | .nextTrack =>
      ((s.modRebuild fun _ => r1).setStep (.startTag b (track + 1))).rebuildRead b ((track + 1) * (s.shape b).track) 1
    | .no => s.readStartTag r1 (b + 1)

/-- A candidate's footer has been read (R136). -/
def State.footerDone (s : State) (r : Rebuild) (blocks : List (Option MediaBlock)) : State :=
  match r.todo with
  | [] => s.nextCandidate r
  | c :: _ =>
    let sh := s.shape c.band
    let r1 := { r with above := max r.above (s.footerAbove blocks) }
    if s.footerUsable c.floor blocks then s.candidateDone r1 (fromFooter sh.capacity (footerContents blocks) c)
    else if c.start < sh.capacity then (s.modRebuild fun _ => r1).readTags c c.start false
    else s.tagsEnd r1 c

/-- Tags of a candidate have been read from an offset on (R136). -/
def State.tagsDone (s : State) (r : Rebuild) (offset : Nat) (blocks : List (Option MediaBlock)) : State :=
  match r.todo with
  | [] => s.nextCandidate r
  | c :: rest =>
    let x := s.takeFill c.floor offset r.lastRun blocks
    let c1 := { c with taken := c.taken ++ x.taken }
    let r1 := { r with todo := c1 :: rest, lastRun := x.lastRun, above := max r.above (s.tagsAbove blocks) }
    let s1 := s.modRebuild fun _ => r1
    match x.stop with
    | some (_, true) => s1.tagsEnd r1 c1
    | some (o, false) => s1.hop r1 c1 o
    | none =>
      let next := offset + blocks.length
      if next < (s.shape c.band).capacity then s1.readTags c1 next false else s1.tagsEnd r1 c1

/-- A tag of the sweep has been read (R138). A removal that splits a record is made whatever the free record count. DESIGN
CHOICE, log entry 17. A block that could not be read counts as one with no valid tag, so that its LBN is removed, where R135 says
this of offset 0 alone. DESIGN CHOICE, log entry 17. -/
def State.sweepDone (s : State) (r : Rebuild) (m : Option MediaBlock) : State :=
  match r.sweep with
  | [] => s.endRebuild r
  | (x, _, _) :: rest =>
    let sound := (m.bind s.validTag).any fun e => namesLbn e x
    let r1 := { r with sweep := rest, above := max r.above (runAbove (s.tagRun m)) }
    let table := if sound then s.map.table else removeRange x x s.map.table
    let s1 : State := { s with map := { s.map with table := table, freeCount := freeRecords s.mapCap table } }
    (s1.modRebuild fun _ => r1).continueSweep r1

/-- The next journal block to read: the place of the sequence expected (R134). DEDUCED, log entry 17. -/
def State.readJournal (s : State) : State :=
  match s.geo.inForce with
  | none => s
  | some g => (s.setStep .journal).rebuildSystemRead (journalBase g + journalBlockOf s.recovery.nextSequence) 1

/-- Take records of a journal block while each is the one expected and lies in this block; true where the next expected
place lies in another block (R134). -/
def takeRecords (block : Nat) (rs : List JournalRecord) : Nat → Nat → List JournalEntry → Nat × List JournalEntry × Bool
  | 0, q, j => (q, j, decide (journalBlockOf q ≠ block))
  | n + 1, q, j =>
    if journalBlockOf q ≠ block then (q, j, true)
    else if Config.journalPlaces ≤ j.length then (q, j, false)
    else
      match rs.find? fun x => decide (x.sequence = q) with
      | none => (q, j, false)
      | some x => takeRecords block rs n (q + 1) (j ++ [{ record := x, written := true }])

/-- A journal block has been read (R134). Every record of it has been read, taken or not, so that the run counter is set above
its run number (R139): DEDUCED, log entry 17. -/
def State.journalDone (s : State) (r : Rebuild) (m : Option MediaBlock) : State :=
  let rs : List JournalRecord :=
    match m with
    | some { content := .system (.journal rs), tag := _ } => rs
    | _ => []
  let q0 := s.recovery.nextSequence
  let (q, j, more) := takeRecords (journalBlockOf q0) rs Config.journalPerBlock q0 s.recovery.journal
  let r1 := { r with above := max r.above (recordsAbove rs) }
  let s1 := (s.modRecovery fun x => { x with nextSequence := q, journal := j }).modRebuild fun _ => r1
  if more ∧ j.length < Config.journalPlaces then s1.readJournal else s1.readStartTag r1 0

/-- The records of an image's band table, one for each band (R126). Where the blocks hold fewer, the bands without a record are
EMPTY. DESIGN CHOICE, log entry 17. -/
def imageRecords (bands : Nat) (bs : List BandImage) : List BandRecord :=
  (bs.map loadedBand).take bands ++ List.replicate (bands - bs.length) emptyBand

/-- The rebuild takes an image that has proved valid (R134): the map, as many extent records as the header says, the band table,
the run counter and the journal's sequences, and then reads the journal. -/
def State.takeImage (s : State) (slot : ImageSlot) (h : ImageHeader) (r : Rebuild) : State :=
  let table := r.extents.take h.extents
  let records := imageRecords ((s.geo.inForce.map totalBands).getD 0) r.bands
  let s1 : State :=
    { s with
      map := { s.map with table := table, freeCount := freeRecords s.mapCap table, runCounter := h.watermark }
      bands := { s.bands with records := records, emptyCount := emptyRecords records, closeCounter := h.closeCounter
                              openWait := [] } }
  (s1.modRecovery fun x =>
    { x with lastImage := some slot, sequence := h.sequence, nextSequence := h.firstUnreleased
             firstUnreleased := h.firstUnreleased, journal := [] }).readJournal

/-- Read on in an image's body (R134). -/
def State.readImage (s : State) (slot : ImageSlot) (cursor : Nat) : State :=
  match s.geo.inForce with
  | none => s
  | some g =>
    let (index, n) := imageChunk g slot cursor
    (s.setStep (.image slot)).rebuildSystemRead index n

/-- The header of highest sequence among those read, with the rest. -/
def bestHeader : List (ImageSlot × ImageHeader) → Option ((ImageSlot × ImageHeader) × List (ImageSlot × ImageHeader))
  | [] => none
  | x :: rest =>
    match bestHeader rest with
    | none => some (x, [])
    | some (y, others) => if y.2.sequence ≤ x.2.sequence then some (x, y :: others) else some (y, x :: others)

/-- Try the image of highest sequence that is left; with none left the part enters FAULTED (R134). -/
def State.tryImage (s : State) (headers : List (ImageSlot × ImageHeader)) : State :=
  match bestHeader headers with
  | none => s.enterFaulted
  | some ((slot, h), rest) =>
    (s.modRebuild fun r => { r with headers := rest, header := some h, cursor := 1, extents := [], bands := [], sum := 0 }).readImage
      slot 1

/-- The header a block holds, where it bears the mark and the check word of the record in force (R126). -/
def State.headerOf (s : State) (m : Option MediaBlock) : Option ImageHeader :=
  match m with
  | some { content := .system (.header h), tag := _ } => if h.check = s.geo.checkWord then some h else none
  | _ => none

/-- An image header has been read (R134). -/
def State.headerDone (s : State) (r : Rebuild) (slot : ImageSlot) (m : Option MediaBlock) : State :=
  let headers := r.headers ++ ((s.headerOf m).map fun h => (slot, h)).toList
  match slot, s.geo.inForce with
  | .first, some g =>
    ((s.modRebuild fun x => { x with headers := headers }).setStep (.header .second)).rebuildSystemRead (imageBase g .second) 1
  | .second, _ => s.tryImage headers
  | .first, none => s

/-- Add one body block to what has been read of an image; none where it was unrecovered, or is not a block of its kind and so
does not give the sum of one (R126, R134). DEDUCED, log entry 17. -/
def addBody (g : Geometry) (r : Rebuild) (m : Option MediaBlock) : Option Rebuild :=
  match m with
  | some { content := .system (.extents es), tag := _ } =>
    if r.cursor ≤ mapBlocks g then
      some { r with cursor := r.cursor + 1, extents := r.extents ++ es, sum := r.sum + Config.extentBlockSum es }
    else none
  | some { content := .system (.bands bs), tag := _ } =>
    if mapBlocks g < r.cursor then
      some { r with cursor := r.cursor + 1, bands := r.bands ++ bs, sum := r.sum + Config.bandBlockSum bs }
    else none
  | _ => none

/-- Add body blocks one after another. -/
def addBodies (g : Geometry) (r : Rebuild) : List (Option MediaBlock) → Option Rebuild
  | [] => some r
  | m :: rest => (addBody g r m).bind fun r1 => addBodies g r1 rest

/-- Blocks of an image's body have been read (R134): read on, take the image, or try the other. -/
def State.imageDone (s : State) (r : Rebuild) (slot : ImageSlot) (blocks : List (Option MediaBlock)) : State :=
  match s.geo.inForce, r.header with
  | some g, some h =>
    match addBodies g r blocks with
    | none => s.tryImage r.headers
    | some r1 =>
      let s1 := s.modRebuild fun _ => r1
      if r1.cursor < imageBlocks g then s1.readImage slot r1.cursor
      else if r1.sum = h.sum then s1.takeImage slot h r1
      else s1.tryImage r1.headers
  | _, _ => s

/-- The first block of those a read delivered; none where it was unrecovered. -/
def firstBlock (blocks : List (Option MediaBlock)) : Option MediaBlock := (blocks.head?).bind id

/-- A read of the rebuild completes with its blocks (R134 to R138), in REBUILDING. A read that completes NOT READY is issued
again. -/
def State.rebuildReadDone (s : State) (op : MediaOp) (blocks : List (Option MediaBlock)) (notReady : Bool) : State :=
  match s.recovery.rebuild with
  | none => s
  | some r =>
    if s.recovery.part ≠ .rebuilding then s
    else if notReady then s.submit op
    else
      match r.step with
      | .header slot => s.headerDone r slot (firstBlock blocks)
      | .image slot => s.imageDone r slot blocks
      | .journal => s.journalDone r (firstBlock blocks)
      | .startTag b track => s.startTagDone r b track (firstBlock blocks)
      | .footer => s.footerDone r blocks
      | .tags offset _ => s.tagsDone r offset blocks
      | .sweep => s.sweepDone r (firstBlock blocks)
      | .checkpoint => s

/-! ### The load (R124) -/

/-- Issue the reads of the two geometry copies (R124). -/
def State.issueLoad (s : State) : State :=
  ((s.submit (systemReadOp (.loadGeometry false) 0 1)).submit (systemReadOp (.loadGeometry true) 1 1)).modRecovery fun r =>
    { r with loadIssued := true }

/-- What a copy of the geometry record is (R124). DEDUCED, log entry 16. -/
def copyResult (m : Option MediaBlock) : CopyResult :=
  match m with
  | none => .neither
  | some { content := .system (.geometry g check), tag := _ } => if check = checkWordOf g then .valid g else .neither
  | some _ => .blank

/-- A record loaded from the system area comes into force, and the part enters REBUILDING (R124, R134). -/
def State.beginRebuild (s : State) (g : Geometry) : State :=
  let s1 := (s.comeIntoForce g).modRecovery fun r => { r with part := .rebuilding, rebuild := some Rebuild.start }
  s1.rebuildSystemRead (imageBase g .first) 1

/-- The end of the load, when both copies have been read (R124). -/
def State.endLoad (s : State) : State :=
  match s.recovery.copy0, s.recovery.copy1 with
  | some (.valid g), some _ => s.beginRebuild g
  | some _, some (.valid g) =>
    (s.beginRebuild g).submit (systemWriteOp .rewriteCopy 0 [.geometry g (checkWordOf g)])
  | some .blank, some .blank => (s.modRecovery fun r => { r with part := .unconfigured }).releaseHeld
  | some .blank, some .neither => (s.modRecovery fun r => { r with part := .unconfigured }).releaseHeld
  | some .neither, some .blank => s.enterFaulted
  | some .neither, some .neither => s.enterFaulted
  | none, _ => s
  | _, none => s

/-- A SYSTEM READ completes to the Recovery Unit (R97, R124, R134). The copies of the geometry record are awaited in LOADING
alone. -/
def State.systemReadDone (s : State) (op : MediaOp) (blocks : List (Option MediaBlock)) (notReady : Bool) : State :=
  match op.task with
  | .loadGeometry second =>
    if s.recovery.part ≠ .loading then s
    else if notReady then s.submit op
    else
      let c := some (copyResult (firstBlock blocks))
      (s.modRecovery fun r => if second then { r with copy1 := c } else { r with copy0 := c }).endLoad
  | .rebuildRead => s.rebuildReadDone op blocks notReady
  | .rewriteCopy => s
  | .closeWrite => s
  | .checkpointWrite => s
  | .journalWrite => s
  | .none => s

end Sys2Proof.Machine
end

