-- ==== Sys2Proof/Machine/Sequencer.lean ====
section
/-! DEFINITION. Chapter 5, sections 5.3 to 5.5: what the sequencer sends, how each kind of operation completes, shock, and
verify. -/

namespace Sys2Proof.Machine

/-- Change the sequencer. -/
def State.modSeq (s : State) (f : Sequencer → Sequencer) : State := { s with seq := f s.seq }

/-! ### The address of an operation (R94, R10) -/

/-- The record that gives system addresses: the one in force, or the one that a CONFIG CLOSE has checked (R169). -/
def State.systemGeometry (s : State) : Option Geometry :=
  match s.geo.inForce with
  | some g => some g
  | none => s.recovery.close.map fun w => w.record

/-- Cylinder, head, start sector and blocks per track of an operation's first block; none outside the geometry (R9). Before
any record, system blocks 0 and 1 lie at cylinder 0, head 0 (R10). -/
def State.opAddress (s : State) (op : MediaOp) : Option (Nat × Nat × Nat × Nat) :=
  match op.place with
  | .band b o =>
    match s.geo.inForce with
    | none => none
    | some g => (bandAddress g b o).map fun a => (a.cylinder, a.head, a.sector, (shapeIn g b).track)
  | .system i =>
    match s.systemGeometry with
    | none => some (0, 0, i, i + 1)
    | some g =>
      let a := systemAddress g i
      some (a.1, a.2.1, a.2.2, systemTrack g)

/-! ### What is sent (section 5.3) -/

/-- The tag that a block of a band carries (R85). -/
def State.tagOf (s : State) (e : Entry) : Option Tag := some { entry := e, check := s.geo.checkWord }

/-- The blocks of a WRITE RUN: its slots' data, or zeros for a pad run, each with its entry as tag (R75, R79, R85). -/
def State.runBlocks (s : State) (op : MediaOp) : List MediaBlock :=
  if op.pad then op.entries.map fun e => { content := .user zeroBlock, tag := s.tagOf e }
  else
    (op.slots.zip op.entries).map fun x =>
      let data := ((x.1.bind s.slot).map fun y => y.data).getD zeroBlock
      { content := .user data, tag := s.tagOf x.2 }

/-- The blocks of a FOOTER WRITE: 256 entries to a block, with tags of kind NONE that carry its run number (R4, R85). -/
def State.footerBlocks (s : State) (op : MediaOp) : List MediaBlock :=
  (countFrom 0 op.count).map fun i =>
    { content := .footer (tableBlock Config.entriesPerFooterBlock i op.entries), tag := s.tagOf { noEntry with run := op.run } }

/-- The blocks a write operation writes. -/
def State.writeBlocks (s : State) (op : MediaOp) : List MediaBlock :=
  match op.kind with
  | .writeRun => s.runBlocks op
  | .footerWrite => s.footerBlocks op
  | .systemWrite => op.system.map fun b => { content := .system b, tag := none }
  | .readRun => []
  | .verifyRun => []
  | .systemRead => []

/-- The TRANSFER of an operation from its first block not yet done (R94, R96). -/
def State.transferOf (s : State) (f : InFlight) : ChannelRequest :=
  let sector := (f.sector + f.next) % f.trackBlocks
  let n := f.op.count - f.next
  if writeClass f.op then .writeTransfer sector n (s.writeBlocks f.op) else .readTransfer sector n

/-- Send a SEEK for the operation in flight: POSITIONING (R94). -/
def State.sendSeek (s : State) (f : InFlight) : State :=
  s.modSeq fun q => { q with state := .positioning, current := some f, sent := some (.seek f.cylinder f.head) }

/-- Send the TRANSFER of the operation in flight: TRANSFERRING (R94). DEDUCED, log entry 14. -/
def State.sendTransfer (s : State) (f : InFlight) : State :=
  s.modSeq fun q => { q with state := .transferring, current := some f, sent := some (s.transferOf f) }

/-- The sequencer returns to IDLE with no operation in flight (R94). -/
def State.seqIdle (s : State) : State :=
  s.modSeq fun q => { q with state := .idle, current := none, sent := none, staleSeek := false }

/-! ### Verify (R102 to R104) -/

/-- The HELD slot of a retention list at an offset. -/
def State.heldAt (s : State) (st : Stream) (o : Nat) : Option Nat := (s.retainedAt st [o]).head?

/-- The verify runs of a window, one for each track, given how many tracks are left (R102). -/
def State.verifyRuns (s : State) (st : Stream) (b track last : Nat) (counted : Bool) : Nat → Nat → List MediaOp
  | 0, _ => []
  | n + 1, first =>
    if last < first then []
    else
      let count := min (last + 1 - first) (track - first % track)
      let op : MediaOp :=
        { plainOp .verifyRun (.band b first) count (.stream st) with
          slots := (countFrom first count).map (s.heldAt st), counted := counted }
      op :: s.verifyRuns st b track last counted n (first + count)

/-- Submit operations one after another. -/
def State.submitAll (s : State) : List MediaOp → State
  | [] => s
  | op :: rest => (s.submit op).submitAll rest

/-- Start the verify of a band's suspect window (R102). A band that already has a verify in progress is not given a second
one. -/
def State.startVerify (s : State) (b : Nat) (counted : Bool) : State :=
  match s.band b with
  | none => s
  | some r =>
    match r.suspect, r.owner with
    | some (first, last), some st =>
      if s.seq.verifies.any fun v => decide (v.band = b) then s
      else
        let runs := s.verifyRuns st b (s.shape b).track last counted (last + 1 - first) first
        let v : Verify := { band := b, first := first, last := last, remaining := runs.length, fails := [] }
        (s.modSeq fun q =>
          { q with verifies := q.verifies ++ [v]
                   outstanding := if counted then q.outstanding + runs.length else q.outstanding }).submitAll runs
    | _, _ => s

/-- Start the verify of each band of a list (R101). -/
def State.startVerifies (s : State) : List Nat → State
  | [] => s
  | b :: rest => (s.startVerify b true).startVerifies rest

/-- What the expiry of the quiet timer does without a hold (R101). -/
def State.beginVerifying (s : State) : State :=
  let s1 := (s.startVerifies s.seq.affected).modSeq fun q => { q with affected := [] }
  s1.modSeq fun q => { q with shock := if q.outstanding = 0 then .clear else .verifying }

/-- The outcome of one block of a VERIFY RUN is a fail (R103). The tag LBN of a block is the LBN that its tag carries, whatever
the tag's kind and check word. DESIGN CHOICE, log entry 14. -/
def State.verifyFails (s : State) (slot : Option Nat) (x : Option MediaBlock) : Bool :=
  match x, slot.bind s.slot with
  | none, _ => true
  | some _, none => false
  | some m, some y =>
    !(decide (m.content = .user y.data) && (match m.tag with
        | none => false
        | some t => decide (t.entry.lbn = y.lbn)))

/-- The offsets of a VERIFY RUN that fail; blocks not read fail (R103). -/
def State.failedOffsets (s : State) : Nat → List (Option Nat) → List (Option MediaBlock) → List Nat
  | _, [], _ => []
  | o, _ :: rest, [] => o :: s.failedOffsets (o + 1) rest []
  | o, k :: rest, x :: xs => if s.verifyFails k x then o :: s.failedOffsets (o + 1) rest xs else s.failedOffsets (o + 1) rest xs

/-- A band's third write fault retires it at its verify outcome (R32, R78, R84). -/
def State.retireOpen (s : State) (st : Stream) (b : Nat) (r : BandRecord) : State :=
  let s1 := s.modBand b fun y => { y with state := .retired, owner := none, footer := false, closeNumber := none }
  let s2 := (s1.loseBand st).recordRetirement b
  if r.live = 0 then s2 else s2.awaitRetired b

/-- The outcome of a band's window is reported to the placer that owns the band (R83, R104): the window is removed, failed HELD
slots return to their queue, and the band is retired or its retained slots fall under the ordinary rule (R31, R32). The idle
timer starts again where a block has joined the queue (R71). DEDUCED, log entry 32. -/
def State.verifyOutcome (s : State) (v : Verify) : State :=
  let s1 := s.modBand v.band fun r => { r with suspect := none }
  match (s.band v.band).bind fun r => r.owner with
  | none => s1
  | some st =>
    let s2 := s1.regatherFailed st v.fails
    let s3 :=
      match s2.band v.band with
      | none => s2
      | some r => if r.faults = Config.retireFaults then s2.retireOpen st v.band r else s2.releaseRetained st
    if s.retainedAt st v.fails = [] then s3 else s3.restartIdle st

/-- A VERIFY RUN completes (R101, R103, R104). -/
def State.verifyDone (s : State) (op : MediaOp) (blocks : List (Option MediaBlock)) : State :=
  let b := opBand op
  let fails := s.failedOffsets (opFirst op) op.slots blocks
  let step (v : Verify) : Verify :=
    if v.band = b then { v with remaining := v.remaining - 1, fails := v.fails ++ fails } else v
  let s1 := s.modSeq fun q =>
    { q with verifies := q.verifies.map step, outstanding := if op.counted then q.outstanding - 1 else q.outstanding }
  let finished := s1.seq.verifies.find? fun v => decide (v.band = b) && decide (v.remaining = 0)
  let s2 :=
    match finished with
    | some v => (s1.modSeq fun q => { q with verifies := q.verifies.filter fun x => decide (x.band ≠ b) }).verifyOutcome v
    | none => s1
  s2.modSeq fun q => { q with shock := if q.shock = .verifying ∧ q.outstanding = 0 then .clear else q.shock }

/-! ### Write runs (R25, R28, R47, R73, R95) -/

/-- What becomes of one block of a completed run (R48 to R50). -/
inductive BlockOutcome where
  | committed
  | sourceChanged
  | newerStaged
  | dead
deriving DecidableEq, Repr

/-- The outcome of a block against the map as it stands (R48 to R50). -/
def blockOutcome (index : List IndexEntry) (t : List Extent) (x : Slot) : BlockOutcome :=
  match x.kind with
  | some .relocated =>
    match x.source with
    | none => .sourceChanged
    | some (b, o) =>
      if !mapsTo t x.lbn b o then .sourceChanged
      else if index.any fun e => decide (e.lbn = x.lbn) then .newerStaged
      else .committed
  | some .replaced =>
    match x.damaged with
    | none => .dead
    | some (b, o) => if mapsTo t x.lbn b o then .committed else .dead
  | some .host => if x.superseded then .dead else .committed
  | none => .dead

/-- The outcomes of a run's blocks in offset order, each against the map after the blocks before it (R47).
DEDUCED, log entry 13. -/
def runOutcomes (index : List IndexEntry) (band : Nat) : List Extent → Nat → List Slot → List (Slot × Nat × BlockOutcome)
  | _, _, [] => []
  | t, o, x :: rest =>
    let r := blockOutcome index t x
    let t1 := if r = .committed then insertPiece ⟨x.lbn, 1, band, o⟩ (removeRange x.lbn x.lbn t) else t
    (x, o, r) :: runOutcomes index band t1 (o + 1) rest

/-- The pieces of a run: consecutive applied blocks whose LBNs rise by 1 (R47). -/
def runPieces (band : Nat) : List (Slot × Nat × BlockOutcome) → List Extent
  | [] => []
  | (x, o, r) :: rest =>
    let later := runPieces band rest
    if r ≠ .committed then later
    else
      match later with
      | e :: es =>
        if e.first = x.lbn + 1 ∧ e.offset = o + 1 then ⟨x.lbn, e.length + 1, band, o⟩ :: es
        else ⟨x.lbn, 1, band, o⟩ :: e :: es
      | [] => [⟨x.lbn, 1, band, o⟩]

/-- The changes that pieces make: each is removed and inserted as a whole (R47). -/
def pieceChanges (es : List Extent) : List MapChange :=
  (es.map fun e => [MapChange.remove e.first (e.first + e.length - 1), MapChange.insert e]).flatten

/-- The staging index entries of a run's HOST blocks that are not superseded are removed (R47). -/
def State.unindexRun (s : State) (slots : List Nat) : State :=
  { s with staging := { s.staging with index := s.staging.index.filter fun e => decide (e.slot ∉ slots) } }

/-- One slot of a completed run settles (R73, R116): HELD on the retention list, or FREE; a RELOCATED block's outcome goes
to the Cleaner. -/
def State.settleSlot (s : State) (st : Stream) (x : Slot) (r : BlockOutcome) : State :=
  let s1 :=
    if r = .committed then
      (s.modSlot x.number fun y => { y with state := .held }).modPlacer st fun y => { y with retention := y.retention ++ [x.number] }
    else s.freeSlot x.number
  if x.kind = some .relocated then
    let s2 := s1.outOfRelocation
    if r = .newerStaged then
      match x.source with
      | none => s2
      | some (_, o) => s2.modCleaner fun c => { c with recheck := c.recheck ++ [(o, x.lbn)] }
    else s2
  else s1

/-- The slots of a completed run settle (R73). -/
def State.settleSlots (s : State) (st : Stream) : List (Slot × Nat × BlockOutcome) → State
  | [] => s
  | (x, _, r) :: rest => (s.settleSlot st x r).settleSlots st rest

/-- The placer has no outstanding run, and its idle timer starts again while blocks wait (R71, R73). -/
def State.endRun (s : State) (st : Stream) : State := (s.modPlacer st fun x => { x with run := none }).restartIdle st

/-- A write run or pad run counts as written (R95): the done mark moves (R25), the map applies it (R47), the slots settle
(R73), and the release test follows (R77). -/
def State.runWritten (s : State) (st : Stream) (run : OutstandingRun) : State :=
  let s1 := s.modBand run.band fun r => { r with done := run.first + run.count }
  let outcomes := runOutcomes s1.staging.index run.band s1.map.current run.first (s1.slotsOf run.slots)
  let changes := pieceChanges (runPieces run.band outcomes)
  let s2 := ((s1.unreserve run.reserved).unclaimEntry run.claimed)
  let s3 := if run.reserved = 0 then s2 else s2.changeMap changes
  ((((s3.unindexRun run.slots).settleSlots st outcomes).releaseRetained st).endRun st)

/-- A band close is counted; the close that makes 256 requests a checkpoint (R28, R128). -/
def State.countClose (s : State) : State :=
  let n := min (s.recovery.closeCount + 1) Config.closeCountLimit
  let s1 := s.modRecovery fun r => { r with closeCount := n }
  if n = Config.closesPerCheckpoint then s1.requestCheckpoint [] else s1

/-- A footer write counts as written (R25, R28, R76): the band becomes FULL with its close number, the placer loses it, and
it empties at once where nothing is live in it (R29). -/
def State.footerWritten (s : State) (st : Stream) (run : OutstandingRun) : State :=
  let n := s.bands.closeCounter
  let s1 := s.modBand run.band fun r =>
    { r with state := .full, done := (s.shape run.band).size, owner := none, footer := true, closeNumber := some n }
  let s2 : State := { s1 with bands := { s1.bands with closeCounter := n + 1 } }
  (((s2.loseBand st).testBand run.band).countClose).endRun st

/-- How a write operation of a band ended without counting as written (R26, R93, R95, R99). -/
inductive Unwritten where
  | fault
  | shock
  | notReady
deriving DecidableEq, Repr

/-- A write operation of a band ends without counting as written (R26, R27, R30, R31, R82, R95, R99). -/
def State.runUnwritten (s : State) (st : Stream) (run : OutstandingRun) (why : Unwritten) : State :=
  match why with
  | .notReady => if run.kind = .footer then s.dropFooter st else s.skipRun st run
  | .fault =>
    ((s.modBand run.band fun r => { r with faults := r.faults + 1 }).damageRun st run).startVerify run.band false
  | .shock =>
    (s.damageRun st run).modSeq fun q =>
      { q with affected := if run.band ∈ q.affected then q.affected else q.affected ++ [run.band] }

/-- The outstanding run that an operation carries, with its stream. -/
def State.runOf (s : State) (op : MediaOp) : Option (Stream × OutstandingRun) :=
  match op.origin with
  | .stream st =>
    match (s.placer st).run with
    | none => none
    | some r => if r.op = op.id then some (st, r) else none
  | .port _ => none
  | .cleaner => none
  | .recovery => none

/-- A band write operation counts as written. -/
def State.bandWritten (s : State) (op : MediaOp) : State :=
  match s.runOf op with
  | none => s
  | some (st, r) => if r.kind = .footer then s.footerWritten st r else s.runWritten st r

/-- A band write operation ends without counting as written. -/
def State.bandUnwritten (s : State) (op : MediaOp) (why : Unwritten) : State :=
  match s.runOf op with
  | none => s
  | some (st, r) => s.runUnwritten st r why

/-! ### Reads (R96, R159) -/

/-- One block of a port READ RUN (R159): it is pushed from its READING slot, or it failed and its slot becomes FREE. -/
def State.takeReadBlock (s : State) (p : Port) (cmd i n : Nat) (x : Option MediaBlock) (why : FailedBlock) : State :=
  match s.command p cmd with
  | none => s.freeSlot n
  | some c =>
    match x with
    | some m =>
      let data := contentData m.content
      (s.modSlot n fun y => { y with data := data }).sendPush p cmd i c.record.pieces data (some n)
    | none =>
      let fail (k : Command) : Command :=
        match k.work with
        | .read next missed a b pushed failed => { k with work := .read next missed a b pushed (failed ++ [(i, why)]) }
        | _ => k
      (s.freeSlot n).modCommand p cmd fail

/-- The blocks of a port READ RUN in order; those beyond what was delivered were not read (R93, R159). -/
def State.takeReadBlocks (s : State) (p : Port) (cmd : Nat) : List Nat → List Nat → List (Option MediaBlock) → State
  | i :: is, n :: ns, x :: xs => (s.takeReadBlock p cmd i n x .unrecovered).takeReadBlocks p cmd is ns xs
  | i :: is, n :: ns, [] => (s.takeReadBlock p cmd i n none .notRead).takeReadBlocks p cmd is ns []
  | [], _, _ => s
  | _ :: _, [], _ => s

/-- A port READ RUN completes (R87, R96, R159). -/
def State.portReadDone (s : State) (p : Port) (op : MediaOp) (blocks : List (Option MediaBlock)) (discard : Bool) : State :=
  let slots := op.slots.filterMap id
  let s1 := s.dropRef (opBand op)
  if discard then s1.freeSlots slots else s1.takeReadBlocks p op.command op.blocks slots blocks

/-- A read operation completes with the blocks delivered, `none` for an unrecovered one (R93, R96, R97). -/
def State.readDone (s : State) (op : MediaOp) (blocks : List (Option MediaBlock)) (discard notReady : Bool) : State :=
  match op.kind with
  | .verifyRun => s.verifyDone op blocks
  | .systemRead => s.systemReadDone op blocks notReady
  | .readRun =>
    match op.origin with
    | .port p => s.portReadDone p op blocks discard
    | .cleaner => if op.scan then s.scanReadDone op blocks else s.cleanerReadDone op blocks
    | .recovery => s.rebuildReadDone op blocks notReady
    | .stream _ => s
  | .writeRun => s
  | .footerWrite => s
  | .systemWrite => s

/-! ### The end of an operation (R94) -/

/-- An operation completes NOT READY (R93). -/
def State.completeNotReady (s : State) (op : MediaOp) (blocks : List (Option MediaBlock)) (discard : Bool) : State :=
  match op.kind with
  | .writeRun => s.bandUnwritten op .notReady
  | .footerWrite => s.bandUnwritten op .notReady
  | .systemWrite => s.systemWriteDone op .notReady
  | .readRun => s.readDone op blocks discard true
  | .verifyRun => s.readDone op blocks discard true
  | .systemRead => s.readDone op blocks discard true

/-- An operation whose every block failed: its four seek retries all failed (R94 to R97). Blocks delivered before a wait for
readiness stay delivered (R94), and the others are unrecovered. DESIGN CHOICE, log entry 14. -/
def State.completeAllFailed (s : State) (f : InFlight) : State :=
  match f.op.kind with
  | .writeRun => s.bandUnwritten f.op .fault
  | .footerWrite => s.bandUnwritten f.op .fault
  | .systemWrite => s.systemWriteDone f.op .fault
  | .readRun => s.readDone f.op (f.delivered ++ List.replicate (f.op.count - f.next) none) f.discard false
  | .verifyRun => s.readDone f.op (f.delivered ++ List.replicate (f.op.count - f.next) none) f.discard false
  | .systemRead => s.readDone f.op (f.delivered ++ List.replicate (f.op.count - f.next) none) f.discard false

/-- A SYSTEM WRITE aborted by a shock goes back to waiting in the queue with its arrival time and aged flag (R97). -/
def State.requeue (s : State) (op : MediaOp) : State := { s with media := { s.media with queue := op :: s.media.queue } }

/-- A write operation ends as a shock abort (R97, R99). -/
def State.shockAbort (s : State) (op : MediaOp) : State :=
  if op.kind = .systemWrite then s.requeue op else s.bandUnwritten op .shock

/-- The blocks a read has delivered more, from block `next` on. -/
def InFlight.deliver (f : InFlight) (blocks : List MediaBlock) : InFlight :=
  { f with delivered := f.delivered ++ blocks.map some, next := f.next + blocks.length }

/-- The retry count of the block a read stands at (R96). -/
def InFlight.retries (f : InFlight) : Nat :=
  match f.retry with
  | none => 0
  | some (i, n) => if i = f.next then n else 0

/-- A READ ERROR after blocks were delivered (R96): the block in error is retried, up to 4 times, and is then unrecovered. -/
def InFlight.readError (f : InFlight) (blocks : List MediaBlock) : InFlight :=
  let f1 := f.deliver blocks
  if f1.retries < Config.retryLimit then { f1 with retry := some (f1.next, f1.retries + 1) }
  else { f1 with delivered := f1.delivered ++ [none], next := f1.next + 1, retry := none }

/-! ### Readiness and shock (R93, R98 to R101) -/

/-- Readiness is lost: the shock mask is in force and no filter runs (R93, R98). -/
def loseReadiness (q : Sequencer) : Sequencer := { q with ready := false, shockMask := true, shockFilter := false }

/-- A READY report: readiness, and the shock mask for 50 ms from now (R93, R98). -/
def gainReadiness (q : Sequencer) : Sequencer := { q with ready := true, shockMask := true, shockFilter := false }

/-- The SHOCK input changes (R98): an assertion starts the 20-µs filter where the mask allows, a deassertion cancels it. -/
def shockInput (level : Bool) (q : Sequencer) : Sequencer :=
  if level = q.shockPin then q
  else if level then { q with shockPin := true, shockTaken := false, shockFilter := !q.shockMask }
  else { q with shockPin := false, shockTaken := false, shockFilter := false }

/-- The shock mask ends (R98): an assertion still unbroken starts its filter. -/
def endShockMask (q : Sequencer) : Sequencer :=
  if q.ready ∧ q.shockMask then { q with shockMask := false, shockFilter := q.shockPin && !q.shockTaken } else q

/-- The shock event joins the window, and 8 in it latch WRITE HOLD (R99, R100). -/
def joinShockWindow (q : Sequencer) : Sequencer :=
  let window := q.window ++ [q.shockStamp]
  { q with window := window, shockStamp := q.shockStamp + 1
           writeHold := q.writeHold || decide (Config.holdEvents ≤ window.length) }

/-- The state changes of a shock event: QUIET, the quiet timer from 10 ms, and the window (R99, R100). -/
def enterQuiet (q : Sequencer) : Sequencer :=
  joinShockWindow { q with shockFilter := false, shockTaken := true, shock := .quiet, quietTimer := true }

/-- A shock event aborts the write-class operation in flight (R99). DEDUCED, log entry 14. -/
def State.abortInFlight (s : State) : State :=
  match s.seq.current with
  | none => s
  | some f =>
    if !writeClass f.op || f.ended then s
    else
      match s.seq.state with
      | .transferring => s.modSeq fun q => { q with state := .aborting, sent := some .abort }
      | .aborting => s
      | .positioning =>
        if f.op.kind = .systemWrite then
          (s.modSeq fun q => { q with current := none, staleSeek := true }).requeue f.op
        else (s.modSeq fun q => { q with current := some { f with ended := true } }).bandUnwritten f.op .shock
      | .waitingReady => s.seqIdle.shockAbort f.op
      | .idle => s

/-- The channel answers the SEEK of an operation that is no longer wanted (R99). -/
def State.deadSeek (s : State) : Bool :=
  s.seq.staleSeek || match s.seq.current with
    | none => false
    | some f => f.ended

end Sys2Proof.Machine
end

