-- ==== Sys2Proof/Machine/ChainEvents.lean ====
section
/-! DEFINITION. The meanings of the rows of the port links' part transactions: record reads and polls, pushes, write-backs,
pacing, and link faults (chapters 8 and 11). -/

namespace Sys2Proof.Machine

/-- RECORD_READ_ANSWER (R146). -/
def execRecordReadAnswer (p : Port) (words : RecordWords) (s : State) : Host.Outcome State Fault Refusal :=
  let e := s.port p
  match e.walk, takingAt e with
  | .record, some a => .next (s.examineRecord p a words)
  | _, _ => .next s

/-- CONTINUATION_READ_ANSWER (R146). -/
def execContinuationReadAnswer (p : Port) (words : RecordWords) (s : State) : Host.Outcome State Fault Refusal :=
  let e := s.port p
  match e.walk, takingAt e with
  | .continuation head pieces address, some a => .next (s.examineContinuation p a head pieces address words)
  | _, _ => .next s

/-- POLL_NEXT_READ_ANSWER (R147, R150). -/
def execPollNextReadAnswer (p : Port) (next : Address) (s : State) : Host.Outcome State Fault Refusal :=
  let e := s.port p
  match e.walk, e.position with
  | .pollNext, .afterRecord l => .next (s.modPort p (pollNextAnswer l next))
  | _, _ => .next s

/-- RECORD_POLL_ANSWER (R148): with OWN set the port is RUNNING again, and the record is examined as a record read. -/
def execRecordPollAnswer (p : Port) (words : RecordWords) (s : State) : Host.Outcome State Fault Refusal :=
  let e := s.port p
  match e.walk, e.position with
  | .pollRecord, .atRecord a =>
    .next ((s.modPort p fun x => { x with process := .running, walk := .record }).examineRecord p a words)
  | _, _ => .next s

/-- Send the poll of a suspended port, unless one is outstanding: a next read of the record its position is after (R147), or a
record read of the record it is at (R148). A poll timer that runs at a RESUME stops with the poll that is sent: DESIGN CHOICE, log
entry 19. -/
def sendPoll (e : PortEngine) : PortEngine :=
  if e.walk = .idle ∧ e.stopRequested = false ∧ e.teardown = false ∧ e.linkUp then
    match e.process, e.position with
    | .suspendedEnd, .afterRecord _ => { e with walk := .pollNext, pollTimer := none }
    | .suspendedNotOwned, .atRecord _ => { e with walk := .pollRecord, pollTimer := none }
    | _, _ => e
  else e

/-- POLL_TIMER_EXPIRY (R147, R148). -/
def execPollTimerExpiry (p : Port) (s : State) : Host.Outcome State Fault Refusal :=
  if (s.port p).pollTimer.isSome then .next (s.modPort p fun e => sendPoll { e with pollTimer := none }) else .next s

/-- A push of a command has been answered (R159, R165). -/
def pushedOne (index : Nat) (c : Command) : Command :=
  match c.work with
  | .read next missed staged unmapped pushed failed => { c with work := .read next missed staged unmapped (pushed + 1) failed }
  | .report next read entries =>
    let more := min entriesPerReportBlock (c.record.count.toNat - entriesPerReportBlock * index)
    { c with work := .report next read (entries + more) }
  | _ => c

/-- PUSH_ANSWER (R159, R165). -/
def execPushAnswer (p : Port) (cmd index : Nat) (s : State) : Host.Outcome State Fault Refusal :=
  match takeFirst (fun x => decide (x.cmd = cmd) && decide (x.index = index)) (s.port p).pushes with
  | none => .next s
  | some (x, rest) =>
    let s1 := (s.modPort p fun e => { e with pushes := rest }).endPush x
    .next (s1.modCommand p cmd (pushedOne index)).react

/-- WRITE_BACK_START (R151). -/
def execWriteBackStart (p : Port) (s : State) : Host.Outcome State Fault Refusal := .next (s.modPort p writeBackBegin)

/-- WRITE_BACK_NEXT_READ_ANSWER (R152). -/
def execWriteBackNextReadAnswer (p : Port) (next : Address) (s : State) : Host.Outcome State Fault Refusal :=
  .next (s.modPort p (writeBackNext next))

/-- WRITE_BACK_STATUS_ANSWER (R151). -/
def execWriteBackStatusAnswer (p : Port) (s : State) : Host.Outcome State Fault Refusal := .next (s.modPort p writeBackStatus)

/-- WRITE_BACK_EVENT (R151, R181). -/
def execWriteBackEvent (p : Port) (s : State) : Host.Outcome State Fault Refusal :=
  if writeBackDue (s.port p) then
    let s1 := s.modPort p writeBackDone
    .next (s1.setNotice p (noticeWriteBack (s1.notice p)))
  else .next s

/-- PACING_TIMER_EXPIRY (R181). -/
def execPacingTimerExpiry (p : Port) (s : State) : Host.Outcome State Fault Refusal :=
  .next (s.setNotice p (noticeTimerExpiry (s.notice p)))

/-- LINK_FAULT (R141), by a transaction that is outstanding. The limits of those that a fault or a loss has discarded raise no
further fault. -/
def execLinkFault (p : Port) (s : State) : Host.Outcome State Fault Refusal :=
  if s.linkBusy p then .next ((s.abandonAll p).modPort p (linkDown .linkFault)).react else .next s

/-- LINK_LOSS (R142): the link is DOWN. -/
def execLinkLoss (p : Port) (s : State) : Host.Outcome State Fault Refusal :=
  .next ((s.abandonAll p).modPort p fun e => linkDown .linkLost { e with linkUp := false }).react

/-- LINK_UP (R142): the link is UP, and nothing else changes. -/
def execLinkUp (p : Port) (s : State) : Host.Outcome State Fault Refusal := .next (s.modPort p fun e => { e with linkUp := true })

end Sys2Proof.Machine
end

