-- ==== Sys2Proof/Machine/ChannelEvents.lean ====
section
/-! DEFINITION. The meanings of the rows of the channel link, the media queue and the arbiter (chapter 5). -/

namespace Sys2Proof.Machine

/-- SEEK_DONE (R94): the TRANSFER is sent, or an operation that was aborted in POSITIONING is over (R99). -/
def execSeekDone (s : State) : Host.Outcome State Fault Refusal :=
  if s.seq.state = .positioning then
    if s.deadSeek then .next s.seqIdle
    else
      match s.seq.current with
      | none => .next s
      | some f => .next (s.sendTransfer f)
  else .next s

/-- SEEK_FAILED (R94): the SEEK again, up to 4 times. -/
def execSeekFailed (s : State) : Host.Outcome State Fault Refusal :=
  if s.seq.state = .positioning then
    if s.deadSeek then .next s.seqIdle
    else
      match s.seq.current with
      | none => .next s
      | some f =>
        if f.seekRetries < Config.retryLimit then .next (s.sendSeek { f with seekRetries := f.seekRetries + 1 })
        else .next (s.seqIdle.completeAllFailed f).react
  else .next s

/-- CHANNEL_NOT_READY_ANSWER (R93, R94, R99). -/
def execChannelNotReadyAnswer (s : State) : Host.Outcome State Fault Refusal :=
  let s1 := s.modSeq loseReadiness
  match s.seq.state with
  | .idle => .next s
  | .waitingReady => .next s
  | .positioning => if s.deadSeek then .next s1.seqIdle else .next (s1.modSeq fun q => { q with state := .waitingReady, sent := none })
  | .transferring => .next (s1.modSeq fun q => { q with state := .waitingReady, sent := none })
  | .aborting =>
    match s.seq.current with
    | none => .next s1
    | some f => .next (s1.seqIdle.shockAbort f.op).react

/-- NOT_READY_NOTICE (R93). -/
def execNotReadyNotice (s : State) : Host.Outcome State Fault Refusal := .next (s.modSeq loseReadiness)

/-- READY_REPORT (R93, R12, R16, R94). -/
def execReadyReport (cylinders : Nat) (s : State) : Host.Outcome State Fault Refusal :=
  let s1 : State := { s with geo := { s.geo with cylinders := some cylinders }, seq := gainReadiness s.seq }
  let s2 :=
    match s1.seq.state, s1.seq.current with
    | .waitingReady, some f => s1.sendSeek f
    | _, _ => s1
  match s2.recovery.close with
  | none => .next s2
  | some w => if w.step = .awaitReady then .next (s2.closeCheck21 w cylinders) else .next s2

/-- READINESS_TIMER_EXPIRY (R93). In FAULTED the operations that wait stay in the queue (R89). DESIGN CHOICE, log entry 28. -/
def execReadinessTimerExpiry (op : Nat) (s : State) : Host.Outcome State Fault Refusal :=
  if s.seq.ready ∨ s.recovery.part = .faulted then .next s
  else
    match takeFirst (fun m => decide (m.id = op)) s.media.queue with
    | none => .next s
    | some (m, rest) =>
      let s1 : State := { s with media := { s.media with queue := rest } }
      .next (s1.completeNotReady m [] false).react

/-- READY_WAIT_EXPIRY (R94, R93). -/
def execReadyWaitExpiry (s : State) : Host.Outcome State Fault Refusal :=
  match s.seq.state, s.seq.current with
  | .waitingReady, some f => .next (s.seqIdle.completeNotReady f.op f.delivered f.discard).react
  | _, _ => .next s

/-- A write operation counts as written: a run of a band or a SYSTEM WRITE (R95, R97). -/
def State.writeGood (s : State) (op : MediaOp) : State :=
  if op.kind = .systemWrite then s.systemWriteDone op .good else s.bandWritten op

/-- A write operation ends in a write fault (R95, R97). -/
def State.writeFaulted (s : State) (op : MediaOp) : State :=
  if op.kind = .systemWrite then s.systemWriteDone op .fault else s.bandUnwritten op .fault

/-- WRITE_TRANSFER_GOOD (R95, R97). In ABORTING the operation ends as a shock abort all the same (R99). -/
def execWriteTransferGood (s : State) : Host.Outcome State Fault Refusal :=
  match s.seq.current with
  | none => .next s
  | some f =>
    if writeClass f.op then
      match s.seq.state with
      | .transferring => .next (s.seqIdle.writeGood f.op).react
      | .aborting => .next (s.seqIdle.shockAbort f.op).react
      | .idle => .next s
      | .positioning => .next s
      | .waitingReady => .next s
    else .next s

/-- WRITE_FAULT (R95, R97), whatever the number of blocks written. In ABORTING the operation ends as a shock abort (R99). -/
def execWriteFault (_blocks : Nat) (s : State) : Host.Outcome State Fault Refusal :=
  match s.seq.current with
  | none => .next s
  | some f =>
    if writeClass f.op then
      match s.seq.state with
      | .transferring => .next (s.seqIdle.writeFaulted f.op).react
      | .aborting => .next (s.seqIdle.shockAbort f.op).react
      | .idle => .next s
      | .positioning => .next s
      | .waitingReady => .next s
    else .next s

/-- ABORTED (R99), whatever the number of blocks written. -/
def execAborted (_blocks : Nat) (s : State) : Host.Outcome State Fault Refusal :=
  match s.seq.state, s.seq.current with
  | .aborting, some f => .next (s.seqIdle.shockAbort f.op).react
  | _, _ => .next s

/-- A read goes on with its next block, or completes after its last (R96). -/
def State.continueRead (s : State) (f : InFlight) : State :=
  if f.next < f.op.count then s.sendTransfer f else (s.seqIdle.readDone f.op f.delivered f.discard false).react

/-- READ_ERROR after blocks were delivered (R96). -/
def execReadError (delivered : List MediaBlock) (s : State) : Host.Outcome State Fault Refusal :=
  match s.seq.state, s.seq.current with
  | .transferring, some f =>
    if writeClass f.op ∨ f.op.count ≤ f.next + delivered.length then .next s
    else .next (s.continueRead (f.readError delivered))
  | _, _ => .next s

/-- READ_TRANSFER_GOOD (R96, R97): every block of the transfer is delivered. -/
def execReadTransferGood (blocks : List MediaBlock) (s : State) : Host.Outcome State Fault Refusal :=
  match s.seq.state, s.seq.current with
  | .transferring, some f =>
    if writeClass f.op ∨ f.next + blocks.length ≠ f.op.count then .next s
    else .next (s.continueRead (f.deliver blocks))
  | _, _ => .next s

/-- OPERATION_AGED (R88). -/
def execOperationAged (op : Nat) (s : State) : Host.Outcome State Fault Refusal :=
  .next { s with media := { s.media with queue := s.media.queue.map fun m => if m.id = op then { m with aged := true } else m } }

/-- A grant is possible (R89): the sequencer is IDLE, the channel READY and the part not FAULTED. -/
def State.canGrant (s : State) : Bool :=
  decide (s.seq.state = .idle) && s.seq.current.isNone && s.seq.ready && decide (s.recovery.part ≠ .faulted)

/-- The operation in flight at its grant (R94). Its seek retry count starts at 0, also for a SYSTEM WRITE that a shock sent back
to the queue: DESIGN CHOICE, log entry 14. -/
def inFlightOf (op : MediaOp) (a : Nat × Nat × Nat × Nat) : InFlight :=
  { op := op, cylinder := a.1, head := a.2.1, sector := a.2.2.1, trackBlocks := a.2.2.2, next := 0, delivered := [],
    seekRetries := 0, retry := none, discard := false, ended := false }

/-- ARBITER_GRANT (R89 to R91, R94). -/
def execArbiterGrant (s : State) : Host.Outcome State Fault Refusal :=
  if s.canGrant then
    match s.arbiterChoice with
    | none => .next s
    | some g =>
      match s.opAddress g.op with
      | none => .fault .addressOutOfRange
      | some a => .next ((s.afterGrant g).sendSeek (inFlightOf g.op a))
  else .next s

/-- The oldest waiter enters, or is withdrawn where its placer cannot build: the placer then waits for the item it lacks (R53,
R58), and the place passes to the next waiter (R86). -/
def State.enterOldest (s : State) : List Waiter → State
  | [] => { s with media := { s.media with entryWait := [] } }
  | .op m :: rest => ({ s with media := { s.media with entryWait := rest } } : State).enterWaiting m
  | .placer st _ :: rest =>
    let s1 : State := { s with media := { s.media with entryWait := rest } }
    match s1.buildDue st with
    | some s2 => s2
    | none => (s1.waitForItems st).enterOldest rest

/-- MEDIA_QUEUE_ENTRY (R86). -/
def execMediaQueueEntry (s : State) : Host.Outcome State Fault Refusal :=
  if s.queueCount < Config.queueLimit then .next (s.enterOldest s.media.entryWait).react else .next s

end Sys2Proof.Machine
end

