-- ==== Sys2Proof/Machine/CommandRows.lean ====
section
/-! DEFINITION. The meanings of the rows of the commands (R156): the taking of the command at the port's position, where the
port can take one. -/

namespace Sys2Proof.Machine

/-- NOP (R170). -/
def execNop (p : Port) (c : CommandRecord) (s : State) : Host.Outcome State Fault Refusal := .next (s.takeAtPosition p 0 c)

/-- READ (R158). -/
def execRead (p : Port) (c : CommandRecord) (s : State) : Host.Outcome State Fault Refusal := .next (s.takeAtPosition p 1 c)

/-- WRITE (R160). -/
def execWrite (p : Port) (c : CommandRecord) (s : State) : Host.Outcome State Fault Refusal := .next (s.takeAtPosition p 2 c)

/-- TRIM (R162). -/
def execTrim (p : Port) (c : CommandRecord) (s : State) : Host.Outcome State Fault Refusal := .next (s.takeAtPosition p 3 c)

/-- FLUSH (R163). -/
def execFlush (p : Port) (c : CommandRecord) (s : State) : Host.Outcome State Fault Refusal := .next (s.takeAtPosition p 4 c)

/-- LOCATE (R164). -/
def execLocate (p : Port) (c : CommandRecord) (s : State) : Host.Outcome State Fault Refusal := .next (s.takeAtPosition p 5 c)

/-- BAND_REPORT (R165). -/
def execBandReport (p : Port) (c : CommandRecord) (s : State) : Host.Outcome State Fault Refusal :=
  .next (s.takeAtPosition p 6 c)

/-- CHECKPOINT (R166). -/
def execCheckpoint (p : Port) (c : CommandRecord) (s : State) : Host.Outcome State Fault Refusal :=
  .next (s.takeAtPosition p 7 c)

/-- TAKEOVER (R174). -/
def execTakeover (p : Port) (c : CommandRecord) (s : State) : Host.Outcome State Fault Refusal :=
  .next (s.takeAtPosition p 8 c)

/-- CONFIG_WRITE (R168). -/
def execConfigWrite (p : Port) (c : CommandRecord) (s : State) : Host.Outcome State Fault Refusal :=
  .next (s.takeAtPosition p 9 c)

/-- CONFIG_CLOSE (R169). -/
def execConfigClose (p : Port) (c : CommandRecord) (s : State) : Host.Outcome State Fault Refusal :=
  .next (s.takeAtPosition p 10 c)

end Sys2Proof.Machine
end

