-- ==== Sys2Proof/Machine/PartEvents.lean ====
section
/-! DEFINITION. The meanings of the rows that reach the whole part: RESET, the SHOCK input and its timers, the check word test,
the watermark, the hold of CONFIG CLOSE, and the Cleaner's two events. -/

namespace Sys2Proof.Machine

/-- A Port Engine after RESET, with the connection state of its link. -/
def freshPort (e : PortEngine) : PortEngine := { PortEngine.reset with linkUp := e.linkUp }

/-- RESET (R123): every block has its reset values, and the reads of the geometry copies are issued (R124). The level of the
SHOCK input and the links' connection states are the inputs' own, and the commands that wait are not state of the part.
DESIGN CHOICE, log entry 5. -/
def execReset (s : State) : Host.Outcome State Fault Refusal :=
  let fresh : State :=
    { State.reset with seq := { Sequencer.reset with shockPin := s.seq.shockPin }, pending := s.pending
                       ports := ⟨freshPort s.ports.a, freshPort s.ports.b⟩ }
  .next fresh.issueLoad

/-- SHOCK_INPUT_CHANGE (R98). -/
def execShockInputChange (asserted : Bool) (s : State) : Host.Outcome State Fault Refusal :=
  .next (s.modSeq (shockInput asserted))

/-- SHOCK_MASK_END (R98). -/
def execShockMaskEnd (s : State) : Host.Outcome State Fault Refusal := .next (s.modSeq endShockMask)

/-- SHOCK_EVENT (R99, R100), at the end of the filter's 20 µs. -/
def execShockEvent (s : State) : Host.Outcome State Fault Refusal :=
  if s.seq.shockFilter then .next (s.abortInFlight.modSeq enterQuiet).react else .next s

/-- SHOCK_WINDOW_EXPIRY (R100): the oldest event leaves the window. -/
def execShockWindowExpiry (s : State) : Host.Outcome State Fault Refusal :=
  .next (s.modSeq fun q => { q with window := q.window.drop 1 })

/-- QUIET_TIMER_EXPIRY (R101). -/
def execQuietTimerExpiry (s : State) : Host.Outcome State Fault Refusal :=
  if s.seq.quietTimer then
    let s1 := s.modSeq fun q => { q with quietTimer := false }
    if s.seq.writeHold then .next s1 else .next s1.beginVerifying
  else .next s

/-- CHECK_WORD_TEST (R125). The references that the entry to FAULTED drops are events of a held release (R35). -/
def execCheckWordTest (s : State) : Host.Outcome State Fault Refusal :=
  match s.geo.inForce with
  | none => .next s
  | some g =>
    if (s.recovery.part = .rebuilding ∨ s.recovery.part = .ready) ∧ checkWordOf g ≠ s.geo.checkWord then
      .next s.enterFaulted.react
    else .next s

/-- WATERMARK_EVENT (R129). -/
def execWatermarkEvent (s : State) : Host.Outcome State Fault Refusal := .next s.watermark

/-- CONFIG_CLOSE_HOLD_EXPIRY (R16). -/
def execConfigCloseHoldExpiry (s : State) : Host.Outcome State Fault Refusal :=
  match s.recovery.close with
  | none => .next s
  | some w => if w.step = .awaitReady then .next (s.failClose w.port w.cmd (completed .notReady 0)) else .next s

/-- VICTIM_SCAN_END (R111, R34). -/
def execVictimScanEnd (s : State) : Host.Outcome State Fault Refusal :=
  match s.cleaner.state, s.cleaner.table with
  | .selecting, some t => if s.recovery.part = .ready then .next (s.endScan t).react else .next s
  | _, _ => .next s

/-- RECHECK_TIMER_EXPIRY (R117). -/
def execRecheckTimerExpiry (s : State) : Host.Outcome State Fault Refusal :=
  match s.cleaner.victim with
  | none => .next s
  | some (b, _) =>
    if s.cleaner.recheckTimer ∧ s.recovery.part = .ready then .next (s.recheckPass b).react else .next s

end Sys2Proof.Machine
end

