-- ==== Sys2Proof/Machine/PortWords.lean ====
section
/-! DEFINITION. The meanings of the front ends' writes of port words (R143, R147 to R155, R182, R184). -/

namespace Sys2Proof.Machine

/-- A CHAIN HEAD with an aligned address that is accepted in STOPPED, where 0 makes the position none, or in a suspended
state (R149). -/
def chainHeadAligned (value : Word64) (e : PortEngine) : PortEngine :=
  match e.process with
  | .stopped => { e with position := if value = 0 then .none else .atRecord value }
  | .suspendedEnd =>
    if value = 0 then latchChainFormat e else walkOn { discardWalk e with process := .running, position := .atRecord value }
  | .suspendedNotOwned =>
    if value = 0 then latchChainFormat e else walkOn { discardWalk e with process := .running, position := .atRecord value }
  | .running => latchHeadWhileRunning e
  | .halted => latchHeadWhileRunning e

/-- A CHAIN HEAD whose bits 5 to 0 are not 0: CHAIN FORMAT is latched, and HEAD WHILE RUNNING as by any CHAIN HEAD written in
RUNNING or HALTED (R149, R155). DEDUCED, log entry 19. -/
def chainHeadUnaligned (e : PortEngine) : PortEngine :=
  match e.process with
  | .stopped => latchChainFormat e
  | .suspendedEnd => latchChainFormat e
  | .suspendedNotOwned => latchChainFormat e
  | .running => latchHeadWhileRunning (latchChainFormat e)
  | .halted => latchHeadWhileRunning (latchChainFormat e)

/-- What a word write brings about while the port's link is UP; while it is DOWN no word transaction reaches the part
(R142). -/
def State.throughLink (s : State) (p : Port) (t : State) : Host.Outcome State Fault Refusal :=
  if (s.port p).linkUp then .next t else .next s

/-- CHAIN_HEAD (R149). -/
def execChainHead (p : Port) (value : Word64) (s : State) : Host.Outcome State Fault Refusal :=
  s.throughLink p (s.modPort p (if aligned64 value then chainHeadAligned value else chainHeadUnaligned))

/-- RESUME (R147, R148): an immediate poll in a suspended state. -/
def execResume (p : Port) (s : State) : Host.Outcome State Fault Refusal :=
  s.throughLink p (s.modPort p sendPoll)

/-- ACK_MARK (R182). -/
def execAckMark (p : Port) (value : Word64) (s : State) : Host.Outcome State Fault Refusal :=
  let s1 := s.modPort p fun e => { e with ackMark := value }
  s.throughLink p (s1.setNotice p (noticeAck (s.notice p) (s.port p).doneMark value))

/-- SETTINGS (R184, R143): the autopoll field is stored as 15 where more is written. -/
def execSettings (p : Port) (value : Word64) (s : State) : Host.Outcome State Fault Refusal :=
  let s1 := s.modPort p fun e => { e with autopoll := min (field value 16 8) Config.autopollLimit }
  s.throughLink p (s1.setNotice p (noticeSettings (s.notice p) (field value 0 8) (field value 8 8) (value.extractLsb' 24 6)))

/-- A port that START takes from STOPPED (R150): a record read of P, or at once a poll of L. -/
def startStopped (e : PortEngine) : PortEngine :=
  match e.position with
  | .none => e
  | .atRecord _ => walkOn { e with process := .running }
  | .afterRecord _ => { e with process := .running, walk := .pollNext }

/-- A START of a RUNNING or suspended port while stop is requested clears it, and the port carries on in its state (R150): a
suspended port starts its poll timer again. Under a teardown the walk stays stopped (R153). A SUSPENDED(END) port whose position R152 has moved on to a record stays SUSPENDED(END) and polls nothing, since
its position is after no record (R147), till a CHAIN HEAD. DESIGN CHOICE, log entry 19. -/
def startAgain (e : PortEngine) : PortEngine :=
  if e.stopRequested then
    let e1 : PortEngine := { e with stopRequested := false }
    if e.teardown then e1
    else
      match e.process with
      | .suspendedEnd => startPollTimer e1
      | .suspendedNotOwned => startPollTimer e1
      | .running =>
        match e.position with
        | .afterRecord _ => { e1 with walk := .pollNext }
        | .atRecord _ => walkOn e1
        | .none => e1
      | .stopped => e1
      | .halted => e1
  else e

/-- What a START does (R150, R177). In HALTED it is ignored, as the table of R150 has it, also with stop requested set, which stays:
DESIGN CHOICE, log entry 19. -/
def State.start (s : State) (p : Port) : State :=
  let e := s.port p
  match e.process with
  | .stopped =>
    if e.position = .none then s
    else if s.staging.owners.get p = otherPort p then ((s.returnGroup p).modPort p startStopped).react
    else s.modPort p startStopped
  | .running => s.modPort p startAgain
  | .suspendedEnd => s.modPort p startAgain
  | .suspendedNotOwned => s.modPort p startAgain
  | .halted => s

/-- START (R150, R177). -/
def execStart (p : Port) (s : State) : Host.Outcome State Fault Refusal := s.throughLink p (s.start p)

/-- STOP (R150). -/
def execStop (p : Port) (s : State) : Host.Outcome State Fault Refusal :=
  if (s.port p).process = .stopped then .next s
  else s.throughLink p (s.modPort p fun e => stopWhenEmpty { discardWalk e with stopRequested := true })

/-- TEARDOWN (R153). -/
def execTeardown (p : Port) (s : State) : Host.Outcome State Fault Refusal :=
  if (s.port p).process = .stopped ∨ (s.port p).teardown then .next s else s.throughLink p (s.tearDown p).react

/-- RESET_PORT (R154, R178, R180). -/
def execResetPort (p : Port) (s : State) : Host.Outcome State Fault Refusal :=
  s.throughLink p (((s.abandonAll p).modPort p resetPortEngine).setNotice p NoticeUnit.reset).react

/-- RELEASE_WRITE_HOLD (R100, R101). -/
def execReleaseWriteHold (p : Port) (s : State) : Host.Outcome State Fault Refusal :=
  if s.seq.writeHold then
    let s1 := s.modSeq fun q => { q with writeHold := false, window := [] }
    s.throughLink p (if s.seq.shock = .quiet ∧ s.seq.quietTimer = false then s1.beginVerifying else s1)
  else .next s

/-- CLEAR_FLAGS (R155). -/
def execClearFlags (p : Port) (mask : BitVec 6) (s : State) : Host.Outcome State Fault Refusal :=
  s.throughLink p (s.modPort p fun e => { e with flags := clearFlagBits e.flags mask })

/-- PORT_WORD_WRITE_IGNORED (R143): answered, and nothing changes. -/
def execPortWordWriteIgnored (_p : Port) (_access : IgnoredAccess) (s : State) : Host.Outcome State Fault Refusal := .next s

end Sys2Proof.Machine
end

