-- ==== Sys2Proof/Machine/StreamEvents.lean ====
section
/-! DEFINITION. The meanings of the rows of the placers, the Band Table Unit, the Staging Manager and the Map Unit
(chapters 2 to 4). -/

namespace Sys2Proof.Machine

/-- RUN_BUILD (R72): the placer builds its data run, or waits for the item that is missing, its records first. -/
def execRunBuild (st : Stream) (s : State) : Host.Outcome State Fault Refusal :=
  if s.wantsRun st then .next (s.tryRun st).react else .next s

/-- FOOTER_WRITE_BUILD (R76). -/
def execFooterWriteBuild (st : Stream) (s : State) : Host.Outcome State Fault Refusal :=
  if s.mayBuild && s.wantsFooter st then .next (s.buildOrWait st fun x => x.buildFooter st).react else .next s

/-- PAD_RUN_BUILD (R79). -/
def execPadRunBuild (st : Stream) (s : State) : Host.Outcome State Fault Refusal :=
  if s.mayBuild && s.wantsPad st then .next (s.buildOrWait st fun x => x.buildPad st).react else .next s

/-- BAND_GRANT (R21 to R23). -/
def execBandGrant (s : State) : Host.Outcome State Fault Refusal := .next s.grantBand.react

/-- GATHER_IDLE_EXPIRY (R71). -/
def execGatherIdleExpiry (st : Stream) (s : State) : Host.Outcome State Fault Refusal :=
  if (s.placer st).idleTimer then .next (s.modPlacer st fun x => { x with idleTimer := false, idleDue := true }) else .next s

/-- PLACEMENT_WAIT_EXPIRY (R71): the cleaner stream's placer waits without a limit. -/
def execPlacementWaitExpiry (st : Stream) (s : State) : Host.Outcome State Fault Refusal :=
  if (s.placer st).bandWait ∧ st ≠ .cleaner then .next (s.endWrites .noSpace (s.headingWrites st)).react else .next s

/-- A placer whose run the records cover leaves the record wait list, and its map wait ends (R55). DEDUCED, log entry 22. -/
def State.endMapWait (s : State) (st : Stream) : State := if s.recordsCover st then s.leaveRecordWait st else s

/-- MAP_WAIT_EXPIRY (R55). A wait whose request the records cover has ended with it, and ends no WRITE. DEDUCED,
log entry 22. -/
def execMapWaitExpiry (st : Stream) (s : State) : Host.Outcome State Fault Refusal :=
  if (s.placer st).mapWait then
    if s.recordsCover st then .next (s.endMapWait st).react
    else .next ((s.endWrites .mapExhausted (writesOf (s.plannedRun st))).react.endMapWait st)
  else .next s

/-- RECORD_WAIT_GRANT (R55). -/
def execRecordWaitGrant (s : State) : Host.Outcome State Fault Refusal := .next (s.grantRecords s.map.recordWait).react

/-- SLOT_GRANT (R63). -/
def execSlotGrant (account : Account) (s : State) : Host.Outcome State Fault Refusal :=
  .next (s.grantWaiting account (s.staging.requests.get account)).react

/-- PULL_COMPLETE (R65): the block that the front end's memory holds at the pull's address stands in its FILLING slot, and the
WRITE asks for its next slot. -/
def execPullComplete (p : Port) (cmd : Nat) (block : Block) (s : State) : Host.Outcome State Fault Refusal :=
  match s.pullOf p cmd with
  | none => .next s
  | some x =>
    let s1 := (s.modSlot x.slot fun y => { y with data := block }).modPort p fun e =>
      { e with pulled := e.pulled ++ [x.slot] }
    .next (s1.requestNextPull p cmd).react

/-- ACCEPTANCE (R66). -/
def execAcceptance (p : Port) (s : State) : Host.Outcome State Fault Refusal := .next (s.tryAccept p).react

/-- TRIM_APPLY (R56). -/
def execTrimApply (p : Port) (cmd : Nat) (s : State) : Host.Outcome State Fault Refusal := .next (s.tryTrim p cmd).react

/-- TRIM_MAP_WAIT_EXPIRY (R56, R162). A trim whose records can be had no longer waits for them: it leaves the record wait list
and goes on waiting for the places it lacks, without limit (R162). DESIGN CHOICE, log entry 22. -/
def execTrimMapWaitExpiry (p : Port) (cmd : Nat) (s : State) : Host.Outcome State Fault Refusal :=
  if .trim p cmd ∈ s.map.recordWait then
    let s1 := s.dropRecordRequest (.trim p cmd)
    if s.trimCovered p cmd then .next s1
    else
      let s2 : State :=
        { s1 with map := { s1.map with trims := s1.map.trims.filter fun t => !(decide (t.port = p) && decide (t.cmd = cmd)) } }
      .next (s2.finish p cmd (completed .mapExhausted 0))
  else .next s

end Sys2Proof.Machine
end

