-- ==== Sys2Proof/Machine/Dispatch.lean ====
section
/-! DEFINITION. One arm per row of spec/opcode_table.json. -/

namespace Sys2Proof.Machine

def exec (i : Instr) (s : State) : Host.Outcome State Fault Refusal :=
  match i with
  | .reset => Sys2Proof.Machine.execReset s
  | .shockInputChange asserted => Sys2Proof.Machine.execShockInputChange asserted s
  | .shockMaskEnd => Sys2Proof.Machine.execShockMaskEnd s
  | .shockEvent => Sys2Proof.Machine.execShockEvent s
  | .shockWindowExpiry => Sys2Proof.Machine.execShockWindowExpiry s
  | .quietTimerExpiry => Sys2Proof.Machine.execQuietTimerExpiry s
  | .seekDone => Sys2Proof.Machine.execSeekDone s
  | .seekFailed => Sys2Proof.Machine.execSeekFailed s
  | .channelNotReadyAnswer => Sys2Proof.Machine.execChannelNotReadyAnswer s
  | .notReadyNotice => Sys2Proof.Machine.execNotReadyNotice s
  | .readyReport cylinders => Sys2Proof.Machine.execReadyReport cylinders s
  | .readinessTimerExpiry op => Sys2Proof.Machine.execReadinessTimerExpiry op s
  | .readyWaitExpiry => Sys2Proof.Machine.execReadyWaitExpiry s
  | .writeTransferGood => Sys2Proof.Machine.execWriteTransferGood s
  | .writeFault blocks => Sys2Proof.Machine.execWriteFault blocks s
  | .aborted blocks => Sys2Proof.Machine.execAborted blocks s
  | .readError delivered => Sys2Proof.Machine.execReadError delivered s
  | .readTransferGood blocks => Sys2Proof.Machine.execReadTransferGood blocks s
  | .operationAged op => Sys2Proof.Machine.execOperationAged op s
  | .arbiterGrant => Sys2Proof.Machine.execArbiterGrant s
  | .mediaQueueEntry => Sys2Proof.Machine.execMediaQueueEntry s
  | .runBuild st => Sys2Proof.Machine.execRunBuild st s
  | .footerWriteBuild st => Sys2Proof.Machine.execFooterWriteBuild st s
  | .padRunBuild st => Sys2Proof.Machine.execPadRunBuild st s
  | .bandGrant => Sys2Proof.Machine.execBandGrant s
  | .gatherIdleExpiry st => Sys2Proof.Machine.execGatherIdleExpiry st s
  | .placementWaitExpiry st => Sys2Proof.Machine.execPlacementWaitExpiry st s
  | .mapWaitExpiry st => Sys2Proof.Machine.execMapWaitExpiry st s
  | .recordWaitGrant => Sys2Proof.Machine.execRecordWaitGrant s
  | .slotGrant account => Sys2Proof.Machine.execSlotGrant account s
  | .pullComplete p cmd block => Sys2Proof.Machine.execPullComplete p cmd block s
  | .acceptance p => Sys2Proof.Machine.execAcceptance p s
  | .trimApply p cmd => Sys2Proof.Machine.execTrimApply p cmd s
  | .trimMapWaitExpiry p cmd => Sys2Proof.Machine.execTrimMapWaitExpiry p cmd s
  | .victimScanEnd => Sys2Proof.Machine.execVictimScanEnd s
  | .recheckTimerExpiry => Sys2Proof.Machine.execRecheckTimerExpiry s
  | .checkWordTest => Sys2Proof.Machine.execCheckWordTest s
  | .watermarkEvent => Sys2Proof.Machine.execWatermarkEvent s
  | .configCloseHoldExpiry => Sys2Proof.Machine.execConfigCloseHoldExpiry s
  | .recordReadAnswer p words => Sys2Proof.Machine.execRecordReadAnswer p words s
  | .continuationReadAnswer p words => Sys2Proof.Machine.execContinuationReadAnswer p words s
  | .pollNextReadAnswer p next => Sys2Proof.Machine.execPollNextReadAnswer p next s
  | .recordPollAnswer p words => Sys2Proof.Machine.execRecordPollAnswer p words s
  | .pollTimerExpiry p => Sys2Proof.Machine.execPollTimerExpiry p s
  | .pushAnswer p cmd index => Sys2Proof.Machine.execPushAnswer p cmd index s
  | .writeBackStart p => Sys2Proof.Machine.execWriteBackStart p s
  | .writeBackNextReadAnswer p next => Sys2Proof.Machine.execWriteBackNextReadAnswer p next s
  | .writeBackStatusAnswer p => Sys2Proof.Machine.execWriteBackStatusAnswer p s
  | .writeBackEvent p => Sys2Proof.Machine.execWriteBackEvent p s
  | .pacingTimerExpiry p => Sys2Proof.Machine.execPacingTimerExpiry p s
  | .linkFault p => Sys2Proof.Machine.execLinkFault p s
  | .linkLoss p => Sys2Proof.Machine.execLinkLoss p s
  | .linkUp p => Sys2Proof.Machine.execLinkUp p s
  | .chainHead p value => Sys2Proof.Machine.execChainHead p value s
  | .resume p => Sys2Proof.Machine.execResume p s
  | .ackMark p value => Sys2Proof.Machine.execAckMark p value s
  | .settings p value => Sys2Proof.Machine.execSettings p value s
  | .start p => Sys2Proof.Machine.execStart p s
  | .stop p => Sys2Proof.Machine.execStop p s
  | .teardown p => Sys2Proof.Machine.execTeardown p s
  | .resetPort p => Sys2Proof.Machine.execResetPort p s
  | .releaseWriteHold p => Sys2Proof.Machine.execReleaseWriteHold p s
  | .clearFlags p mask => Sys2Proof.Machine.execClearFlags p mask s
  | .portWordWriteIgnored p access => Sys2Proof.Machine.execPortWordWriteIgnored p access s
  | .nop p c => Sys2Proof.Machine.execNop p c s
  | .read p c => Sys2Proof.Machine.execRead p c s
  | .write p c => Sys2Proof.Machine.execWrite p c s
  | .trim p c => Sys2Proof.Machine.execTrim p c s
  | .flush p c => Sys2Proof.Machine.execFlush p c s
  | .locate p c => Sys2Proof.Machine.execLocate p c s
  | .bandReport p c => Sys2Proof.Machine.execBandReport p c s
  | .checkpoint p c => Sys2Proof.Machine.execCheckpoint p c s
  | .takeover p c => Sys2Proof.Machine.execTakeover p c s
  | .configWrite p c => Sys2Proof.Machine.execConfigWrite p c s
  | .configClose p c => Sys2Proof.Machine.execConfigClose p c s

end Sys2Proof.Machine
end

