-- ==== Sys2Proof/Machine/Idle.lean ====
section
/-! DEFINITION. What the part does of itself while no command waits: it issues the reads of the geometry copies after RESET,
its scan of the band table reads one more band record, and a READ makes its next lookup or a BAND REPORT reads its next record. -/

namespace Sys2Proof.Machine

/-- The scan of SELECTING reads one more band record (R111). -/
def State.scanTick (s : State) : State :=
  match s.cleaner.state, s.cleaner.table with
  | .selecting, some t => s.modCleaner fun c => { c with table := some (s.scanStep t) }
  | _, _ => s

/-- The step of the part while no command waits. In LOADING the reads of the geometry copies enter the media queue once
(R124). In READY a scan of the Cleaner reads a band record (R111), and a READ makes its next lookup (R158) or a BAND REPORT
reads its next band record (R165). Otherwise the part idles. DESIGN CHOICE, log entry 4. -/
def State.idle (s : State) : State :=
  match s.recovery.part with
  | .loading => if s.recovery.loadIssued then s else s.issueLoad
  | .unconfigured => s
  | .rebuilding => s
  | .ready => s.scanTick.lookupTick
  | .faulted => s

/-- Put a command at the front of the queue of those that wait. -/
def State.putFront (s : State) (c : Option Instr) : State :=
  match c with
  | none => s
  | some i => { s with pending := i :: s.pending }

end Sys2Proof.Machine
end

