-- ==== Sys2Proof/Safety.lean ====
section
/-! DEFINITION. What counts as a safe run: a step that answers a next state, and the laws that every step keeps. -/

namespace Sys2Proof.Machine

/-- A step of the part goes on to a next state. -/
def Runs (o : Host.Outcome State Fault Refusal) : Prop := ∃ t, o = .next t

/-- The EMPTY count is the number of band records whose state is EMPTY (R18, R20). -/
def State.EmptyCounted (s : State) : Prop := s.bands.emptyCount = emptyRecords s.bands.records

/-- The in-flight list of either port never exceeds 32 commands (R145). -/
def State.ListsBounded (s : State) : Prop := ∀ p, (s.port p).list.length ≤ Config.inFlightLimit

/-- In LOADING and UNCONFIGURED no record is in force; in REBUILDING and READY one is (R1, R123). -/
def State.RecordPlaced (s : State) : Prop :=
  match s.recovery.part with
  | .loading => s.geo.inForce = none
  | .unconfigured => s.geo.inForce = none
  | .rebuilding => s.geo.inForce ≠ none
  | .ready => s.geo.inForce ≠ none
  | .faulted => True

/-- A CONFIG CLOSE under way belongs to UNCONFIGURED, or the part has become FAULTED (R14, R15). -/
def State.ClosePlaced (s : State) : Prop :=
  s.recovery.close.isSome → s.recovery.part = .unconfigured ∨ s.recovery.part = .faulted

/-- The record in force and a CONFIG CLOSE stand in the part states they belong to. -/
def State.Placed (s : State) : Prop := s.RecordPlaced ∧ s.ClosePlaced

/-- The part is FAULTED. -/
def State.Faulted (s : State) : Prop := s.recovery.part = .faulted

/-- The shock mask is in force while the channel is NOT READY, and no filter runs under it (R98). -/
def State.Masked (s : State) : Prop :=
  (s.seq.ready = false → s.seq.shockMask = true) ∧ (s.seq.shockMask = true → s.seq.shockFilter = false)

/-- The pending-apply list holds entries only while the write-phase flag is set (R58, R60). -/
def State.PhaseKept (s : State) : Prop := s.map.writePhase = false → s.map.pendingApply = []

/-- The slots that are not FREE are listed by rising number, each once (R61). -/
def State.SlotsInOrder (s : State) : Prop := s.staging.slots.Pairwise fun x y => x.number < y.number

/-- The low six bits of each port's DONE MARK are its write-back count (R143, R151). -/
def State.DoneMarked (s : State) : Prop := ∀ p, (s.port p).doneMark.extractLsb' 0 6 = (s.port p).writeBacks

/-- The numbers the model gives to commands: each command of a list has one below the port's next. -/
def State.Numbered (s : State) : Prop := ∀ p, ∀ c ∈ (s.port p).list, c.id < (s.port p).nextId

/-- The numbers the model gives to the read runs that wait for slots: each is below the next operation's. -/
def State.RunsNumbered (s : State) : Prop := ∀ f ∈ s.media.forming, f.id < s.media.stamp

/-- The slot charges and the staging index (R61, R62, R67): each account is charged once for each listed slot of its own; the
index holds an LBN at most once, in rising order, and each entry names a slot of its LBN that is GATHERED or WRITING and not
superseded. -/
structure State.StagingRight (s : State) : Prop where
  slots : s.SlotsInOrder
  charges : ∀ k, s.staging.charges.get k = (s.staging.slots.filter fun x => decide (s.staging.slotAccount x = k)).length
  rising : s.staging.index.Pairwise fun x y => x.lbn < y.lbn
  named : ∀ e ∈ s.staging.index, ∃ x ∈ s.staging.slots, x.number = e.slot ∧ x.lbn = e.lbn ∧ x.superseded = false
    ∧ (x.state = .gathered ∨ x.state = .writing)

/-- The band records against the map and the placers (R18, R23, R25, R51, R69): every record's live count is the number of LBNs
that the map maps into its band, and its done mark stands at or below its write pointer; an EMPTY band has no live block; a band
with an owner is OPEN and is that stream's band, and the other way round; a stream that waits for a band has none; a placer's
outstanding run lies in its band below the write pointer, with a footer write up to the band's end; and before a record is in
force there is no band record. -/
structure State.BandsRight (s : State) : Prop where
  form : s.map.current.Pairwise (fun x y => x.first + x.length ≤ y.first) ∧ ∀ e ∈ s.map.current, 1 ≤ e.length
  trims : ∀ t ∈ s.map.trims, t.first ≤ t.last
  live : ∀ b r, s.band b = some r → r.live = liveIn s.map.current b
  done : ∀ b r, s.band b = some r → r.done ≤ r.wp
  empty : ∀ b r, s.band b = some r → r.state = .empty → r.live = 0
  owner : ∀ b r st, s.band b = some r → r.owner = some st → r.state = .opened ∧ (s.placer st).band = some b
  held : ∀ st b, (s.placer st).band = some b → ∃ r, s.band b = some r ∧ r.owner = some st
  waits : ∀ st ∈ s.bands.openWait, (s.placer st).band = none
  runs : ∀ st k, (s.placer st).run = some k → (s.placer st).band = some k.band ∧ ∃ r, s.band k.band = some r
    ∧ k.first + k.count ≤ r.wp ∧ (k.kind = .footer → r.wp = (s.shape k.band).size)
  early : s.recovery.part = .loading ∨ s.recovery.part = .unconfigured → s.bands.records = []

/-- A port whose link is DOWN is STOPPED or HALTED, has no command, and has nothing outstanding or waiting (R142). -/
def State.DownLinksQuiet (s : State) : Prop :=
  ∀ p, (s.port p).linkUp = false → ((s.port p).process = .stopped ∨ (s.port p).process = .halted) ∧ (s.port p).list = []
    ∧ (s.port p).walk = .idle ∧ (s.port p).writeBack = none ∧ (s.port p).pushes = [] ∧ (s.port p).pulled = []
    ∧ (s.port p).pollTimer = none

/-- The form of an extent map (R41): records by ascending first LBN, no LBN covered twice, 1 to 65,535 LBNs in each. -/
def MapForm (t : List Extent) : Prop :=
  t.Pairwise (fun x y => x.first + x.length ≤ y.first) ∧ ∀ e ∈ t, 1 ≤ e.length ∧ e.length ≤ Config.extentLimit

/-- The command row of an opcode (R156): the rows of spec/opcode_table.json that are commands of a chain. -/
def commandRow : Nat → Port → CommandRecord → Option Instr
  | 0, p, c => some (.nop p c)
  | 1, p, c => some (.read p c)
  | 2, p, c => some (.write p c)
  | 3, p, c => some (.trim p c)
  | 4, p, c => some (.flush p c)
  | 5, p, c => some (.locate p c)
  | 6, p, c => some (.bandReport p c)
  | 7, p, c => some (.checkpoint p c)
  | 8, p, c => some (.takeover p c)
  | 9, p, c => some (.configWrite p c)
  | 10, p, c => some (.configClose p c)
  | _, _, _ => none

/-- In `u` a placer's taking of slots for a run has passed over superseded ones (R64, R68, R72): each superseded slot of its stream
that stands in its queue before the last slot the run takes has left the queue, FREE where no READ has it pinned and release due
otherwise; the slots behind that last one, those that are not superseded, and those of no place in the queue are as in `s`. -/
structure State.PassesOver (s : State) (st : Stream) (u : State) : Prop where
  freed : ∀ before last after, (s.placer st).queue = before ++ last :: after → last ∉ before →
    ((s.plannedRun st).getLast?.map fun x => x.number) = some last → ∀ k ∈ before, ∀ x, s.slot k = some x → x.superseded = true →
    x.origin = .stream st → k ∉ (u.placer st).queue ∧ (x.pins = 0 → ∀ z ∈ u.staging.slots, z.number ≠ k)
      ∧ (0 < x.pins → u.slot k = some { x with releaseDue := true })
  behind : ∀ before last after, (s.placer st).queue = before ++ last :: after → last ∉ before →
    ((s.plannedRun st).getLast?.map fun x => x.number) = some last → ∀ k ∈ after, k ∉ before →
    k ∈ (u.placer st).queue ∧ u.slot k = s.slot k
  others : ∀ k, (∀ x, s.slot k = some x → x.superseded = false) ∨ k ∉ (s.placer st).queue → u.slot k = s.slot k

/-- What the end of an event (`State.react`) leaves as it stood: the waiting commands, the geometry, the sequencer, the
notices, the group owners, the part state, the contents of the map and its run counter, and of each port the registers and
which commands its list holds. -/
structure Settled (s t : State) : Prop where
  pending : t.pending = s.pending
  geo : t.geo = s.geo
  seq : t.seq = s.seq
  notices : t.notices = s.notices
  owners : t.staging.owners = s.staging.owners
  part : t.recovery.part = s.recovery.part
  table : t.map.table = s.map.table
  entries : t.map.pendingApply = s.map.pendingApply
  counter : t.map.runCounter = s.map.runCounter
  process : ∀ p, (t.port p).process = (s.port p).process
  position : ∀ p, (t.port p).position = (s.port p).position
  stopRequested : ∀ p, (t.port p).stopRequested = (s.port p).stopRequested
  teardown : ∀ p, (t.port p).teardown = (s.port p).teardown
  doneMark : ∀ p, (t.port p).doneMark = (s.port p).doneMark
  ackMark : ∀ p, (t.port p).ackMark = (s.port p).ackMark
  flags : ∀ p, (t.port p).flags = (s.port p).flags
  linkUp : ∀ p, (t.port p).linkUp = (s.port p).linkUp
  commands : ∀ p, (t.port p).list.map (fun c => (c.id, c.opcode, c.record, c.first))
    = (s.port p).list.map fun c => (c.id, c.opcode, c.record, c.first)

end Sys2Proof.Machine
end

