-- ==== Sys2Proof/WellFormed.lean ====
section
/-! DEFINITION. Well-formed commands: what the operands of a row must be for the event to be one that the links and the
channel of the manual can bring. Each check is a Bool, so that it can be evaluated. -/

namespace Sys2Proof.WellFormed

/-- Offsets rise from cell to cell. -/
def rising : List Host.Cell → Bool
  | [] => true
  | [_] => true
  | x :: y :: rest => decide (x.1 < y.1) && rising (y :: rest)

/-- A block in its one form: offsets below 4096, strictly rising, and no listed byte is 0. -/
def block (b : Block) : Bool :=
  rising b && b.all (fun c => decide (c.1 < Config.blockBytes) && decide (c.2 ≠ 0))

/-- A footer block describes at most 256 offsets (R4); a map block holds at most 256 records, a band table block and a
journal block at most 128 (R126, R127). -/
def content : Content → Bool
  | .user b => block b
  | .footer es => decide (es.length ≤ Config.entriesPerFooterBlock)
  | .system (.extents rs) => decide (rs.length ≤ Config.extentsPerBlock)
  | .system (.bands rs) => decide (rs.length ≤ Config.bandsPerBlock)
  | .system (.journal rs) => decide (rs.length ≤ Config.journalPerBlock)
  | .system _ => true

/-- A media block whose contents are in their form. -/
def mediaBlock (m : MediaBlock) : Bool := content m.content

/-- A transfer runs within one track, which has at most 1023 blocks (R2, R85). -/
def transfer (bs : List MediaBlock) : Bool := decide (bs.length ≤ 1023) && bs.all mediaBlock

/-- The address of a record is a multiple of 64 (R144). -/
def recordAddress (a : Address) : Bool := decide (a.toNat % 64 = 0)

/-- A command has at most 255 pieces (R144). -/
def commandRecord (c : CommandRecord) : Bool :=
  decide (c.pieces.length ≤ 255) && recordAddress c.last

/-- A write of CONTROL that names no action, and an access outside the port words (R143). -/
def ignored : IgnoredAccess → Bool
  | .doneMark _ => true
  | .status _ => true
  | .controlNone v => decide ((v.extractLsb' 0 4).toNat = 0 ∨ 6 < (v.extractLsb' 0 4).toNat)
  | .invalid offset width => decide (width ≠ 8 ∨ offset % 8 ≠ 0 ∨ 48 < offset)

/-- The well-formed commands. -/
def instr : Instr → Bool
  | .reset => true
  | .shockInputChange _ => true
  | .shockMaskEnd => true
  | .shockEvent => true
  | .shockWindowExpiry => true
  | .quietTimerExpiry => true
  | .seekDone => true
  | .seekFailed => true
  | .channelNotReadyAnswer => true
  | .notReadyNotice => true
  | .readyReport _ => true
  | .readinessTimerExpiry _ => true
  | .readyWaitExpiry => true
  | .writeTransferGood => true
  | .writeFault k => decide (k ≤ 1023)
  | .aborted k => decide (k ≤ 1023)
  | .readError bs => transfer bs
  | .readTransferGood bs => transfer bs
  | .operationAged _ => true
  | .arbiterGrant => true
  | .mediaQueueEntry => true
  | .runBuild _ => true
  | .footerWriteBuild _ => true
  | .padRunBuild _ => true
  | .bandGrant => true
  | .gatherIdleExpiry _ => true
  | .placementWaitExpiry _ => true
  | .mapWaitExpiry _ => true
  | .recordWaitGrant => true
  | .slotGrant _ => true
  | .pullComplete _ _ b => block b
  | .acceptance _ => true
  | .trimApply _ _ => true
  | .trimMapWaitExpiry _ _ => true
  | .victimScanEnd => true
  | .recheckTimerExpiry => true
  | .checkWordTest => true
  | .watermarkEvent => true
  | .configCloseHoldExpiry => true
  | .recordReadAnswer _ _ => true
  | .continuationReadAnswer _ _ => true
  | .pollNextReadAnswer _ _ => true
  | .recordPollAnswer _ _ => true
  | .pollTimerExpiry _ => true
  | .pushAnswer _ _ _ => true
  | .writeBackStart _ => true
  | .writeBackNextReadAnswer _ _ => true
  | .writeBackStatusAnswer _ => true
  | .writeBackEvent _ => true
  | .pacingTimerExpiry _ => true
  | .linkFault _ => true
  | .linkLoss _ => true
  | .linkUp _ => true
  | .chainHead _ _ => true
  | .resume _ => true
  | .ackMark _ _ => true
  | .settings _ _ => true
  | .start _ => true
  | .stop _ => true
  | .teardown _ => true
  | .resetPort _ => true
  | .releaseWriteHold _ => true
  | .clearFlags _ _ => true
  | .portWordWriteIgnored _ a => ignored a
  | .nop _ c => commandRecord c
  | .read _ c => commandRecord c
  | .write _ c => commandRecord c
  | .trim _ c => commandRecord c
  | .flush _ c => commandRecord c
  | .locate _ c => commandRecord c
  | .bandReport _ c => commandRecord c
  | .checkpoint _ c => commandRecord c
  | .takeover _ c => commandRecord c
  | .configWrite _ c => commandRecord c
  | .configClose _ c => commandRecord c

end Sys2Proof.WellFormed
end

