-- ==== Sys2Proof/Certificates/Slice0/Obligations.lean ====
section
/-! DEFINITION. The statements about the model, unit by unit. Rows whose event reaches other blocks are stated as
`exec c s = .next u.react` with what the row itself does standing in `u`; what `State.react`, the end of an event, leaves
alone is the statement `EndOfEventLeavesAlone`. -/

open Sys2Proof Sys2Proof.Machine

/-! ### The machine -/

/-- The step takes the command at the front of the queue and is `exec` of it on the state with the queue's rest (the queue is the
model's, log entry 4). -/
def Obligations.StepRunsTheFrontCommand : Prop :=
  ∀ (c : Instr) (rest : List Instr) (s : State), s.pending = c :: rest → step s = exec c { s with pending := rest }

/-- Every row answers a next state on every state and leaves the waiting commands alone; ARBITER_GRANT does so where each
queued operation has an address, which R9 says it always has. That a row answers a next state where its event cannot occur is
the model's choice (log entry 3). -/
def Obligations.EveryRowAnswersANextState : Prop :=
  ∀ (c : Instr) (s : State), (c = .arbiterGrant → ∀ op ∈ s.media.queue, (s.opAddress op).isSome) →
    ∃ t, exec c s = .next t ∧ t.pending = s.pending

/-- What the end of an event leaves alone: the waiting commands, the geometry, the sequencer, the notices, the group owners, the
part state, the map's contents and run counter, and of each port its registers, its link and which commands its list holds.
Which effects stand at the end of an event, and in what order, is the model's choice (log entries 1 and 10): the statement is
about that choice. -/
def Obligations.EndOfEventLeavesAlone : Prop := ∀ s : State, Settled s s.react

/-- R18, R20, R58, R60, R61, R98, R143, R145, R151: every step keeps the EMPTY count equal to the number of EMPTY band records,
the in-flight lists at 32 commands or fewer, the write-back count in the low bits of DONE MARK, the shock mask in force while the
channel is NOT READY with no filter under it, the pending-apply list empty while the write-phase flag is clear, each slot listed
once by rising number, and the model's command numbers below the port's next one and its numbers of formed runs below the next
operation's (log entries 27 and 31). -/
def Obligations.EveryStepKeepsTheCountsListsAndMasks : Prop :=
  ∀ s t : State, step s = .next t →
    (s.EmptyCounted → t.EmptyCounted) ∧ (s.ListsBounded → t.ListsBounded) ∧ (s.DoneMarked → t.DoneMarked)
    ∧ (s.Numbered → t.Numbered) ∧ (s.RunsNumbered → t.RunsNumbered) ∧ (s.Masked → t.Masked) ∧ (s.PhaseKept → t.PhaseKept) ∧ (s.SlotsInOrder → t.SlotsInOrder)

/-- R1, R12, R107, R123, R125: every step keeps the record in force and a CONFIG CLOSE in the part states they belong to; and but
for RESET, the record in force stays with its check word, FAULTED stays, and the Cleaner's state stays as it stands in
FAULTED. -/
def Obligations.EveryStepKeepsTheRecordAndFaulted : Prop :=
  ∀ s t : State, s.Placed → step s = .next t → t.Placed
    ∧ (s.pending.head? ≠ some .reset →
        (∀ g, s.geo.inForce = some g → t.geo.inForce = some g ∧ t.geo.checkWord = s.geo.checkWord)
        ∧ (s.Faulted → t.Faulted ∧ t.cleaner = s.cleaner))

/-- R61, R62, R67, R68: every step keeps each account's charge equal to the number of its slots that are not FREE, and the staging
index naming, for each of its LBNs once, a slot of that LBN that is GATHERED or WRITING and not superseded. -/
def Obligations.EveryStepKeepsTheChargesAndTheIndex : Prop :=
  ∀ s t : State, s.StagingRight → step s = .next t → t.StagingRight

/-- R18, R23, R25, R41, R51, R69: every step from a state outside REBUILDING keeps each band's live count equal to the number of
LBNs mapped into it, its done mark at or below its write pointer, its owner the stream that has it open, and each outstanding run
inside what its band's write pointer has passed. (In REBUILDING the live counts are recomputed at the end, R138.) -/
def Obligations.EveryStepKeepsTheBandRecords : Prop :=
  ∀ s t : State, s.Placed → s.PhaseKept → s.recovery.part ≠ .rebuilding → s.BandsRight → step s = .next t → t.BandsRight

/-- R142: every step keeps a port whose link is DOWN STOPPED or HALTED, with an empty list and nothing outstanding. -/
def Obligations.EveryStepKeepsDownLinksQuiet : Prop :=
  ∀ s t : State, s.DownLinksQuiet → step s = .next t → t.DownLinksQuiet

/-- The state after RESET meets the invariants. -/
def Obligations.ResetMeetsTheInvariants : Prop :=
  State.reset.EmptyCounted ∧ State.reset.ListsBounded ∧ State.reset.DoneMarked ∧ State.reset.Numbered ∧ State.reset.RunsNumbered ∧ State.reset.Placed
    ∧ State.reset.Masked ∧ State.reset.PhaseKept ∧ State.reset.SlotsInOrder ∧ State.reset.StagingRight ∧ State.reset.BandsRight
    ∧ State.reset.DownLinksQuiet

/-- RESET (R1, R19, R40, R61, R69, R86, R94, R99, R105, R123, R145, R180): every block has its reset values and the part is
LOADING, with the reads of the two geometry copies issued (R124). That the waiting commands, the level of the SHOCK input and
the links' connection states are not the part's to reset is the model's choice (log entry 5), and so are the values of the
fields that the manual does not name (log entry 27). -/
def Obligations.ResetGivesEveryBlockItsResetValues : Prop :=
  ∀ s : State, ∃ t, exec .reset s = .next t
    ∧ t.pending = s.pending
    ∧ t.geo.inForce = none ∧ t.geo.draft = [] ∧ t.geo.status = .editable ∧ t.geo.cylinders = none
    ∧ t.bands = { records := [], emptyCount := 0, closeCounter := 0, openWait := [], release := none, retest := false }
    ∧ t.map = { table := [], freeCount := 0, reserved := 0, runCounter := 0, pendingApply := [], promised := 0
                writePhase := false, recordWait := [], phaseWait := [], trims := [] }
    ∧ t.staging.size = 0 ∧ t.staging.slots = [] ∧ t.staging.index = []
    ∧ (∀ k, t.staging.charges.get k = 0 ∧ t.staging.requests.get k = []) ∧ t.staging.owners = ⟨.a, .b⟩
    ∧ (∀ st, t.placer st = { queue := [], band := none, run := none, retention := [], summary := [], idleTimer := false
                             idleDue := false, pad := .none, requests := [], bandWait := false, mapWait := false })
    ∧ (t.media.queue.map fun op => (op.kind, op.place, op.count)) = [(.systemRead, .system 0, 1), (.systemRead, .system 1, 1)]
    ∧ t.media.entryWait = [] ∧ t.media.forming = [] ∧ t.media.turn3 = .portA ∧ t.media.turn4 = .a0 ∧ t.media.share = 0
    ∧ t.seq = { ready := false, state := .idle, current := none, staleSeek := false, sent := none, shockPin := s.seq.shockPin
                shockFilter := false, shockTaken := false, shockMask := true, shock := .clear, quietTimer := false
                affected := [], outstanding := 0, window := [], shockStamp := 0, writeHold := false, verifies := [] }
    ∧ t.cleaner = { mode := .idle, state := .idle, retired := [], victim := none, table := none, scan := none
                    scanBuffer := [], scanRead := false, candidates := [], outstanding := 0, inRelocation := 0, recheck := []
                    unknown := [], recheckTimer := false, drain := false, rescan := false, roomSeen := 0 }
    ∧ t.recovery.part = .loading ∧ t.recovery.copy0 = none ∧ t.recovery.copy1 = none ∧ t.recovery.lastImage = none
    ∧ t.recovery.sequence = 0 ∧ t.recovery.checkpoint.state = .idle ∧ t.recovery.joined = [] ∧ t.recovery.next = []
    ∧ t.recovery.due = false ∧ t.recovery.closeCount = 0 ∧ t.recovery.journal = [] ∧ t.recovery.nextSequence = 0
    ∧ t.recovery.firstUnreleased = 0
    ∧ t.recovery.journalWrite = { active := false, taken := [], blocks := [], reissues := 0, requesters := [], further := false
                                  furtherRequesters := [] }
    ∧ t.recovery.heldRetires = [] ∧ t.recovery.close = none ∧ t.recovery.rebuild = none
    ∧ (∀ p, t.port p = { process := .stopped, cause := .none, position := .none, stopRequested := false, teardown := false
                         list := [], nextId := 0, walk := .idle, pollTimer := none, writeBack := none, pulled := [], pushes := []
                         doneMark := 0, writeBacks := 0, ackMark := 0, autopoll := 0
                         flags := { linkFault := false, headWhileRunning := false, chainFormat := false, partFault := false
                                    takenOver := false }
                         linkUp := (s.port p).linkUp, late := false }
        ∧ t.statusWord p = 0 ∧ t.settingsWord p = 0 ∧ t.noticeLine p = false)
    ∧ (∀ p, t.notice p = { counting := false, tally := 0, delay := false, timer := false, released := false, pacingCount := 0
                           pacingTime := 0, stagedCount := 0, stagedTime := 0, mask := 0 })

/-! ### Geometry -/

/-- R6 to R10: band number BandBase(z) + k×H + h of zone z and offset t×S + x give head h, cylinder Cyl0 + k×(T+G) + t, track
t and sector (x + t×K) mod S; a band at or beyond the band count has no address. System block (r×H + h)×S(1) + x lies at
cylinder r, head h, sector x. -/
def Obligations.AddressesOnTheDisk : Prop :=
  ∀ (g : Geometry), 0 < g.heads →
    (∀ (before after : List Zone) (z : Zone) (k h t x : Nat), g.zones = before ++ z :: after → k < z.bands → h < g.heads →
      t < g.tracks → x < z.blocks →
      bandAddress g (sumZones (zoneBands g) before + k * g.heads + h) (t * z.blocks + x)
        = some { zone := before.length + 1, head := h, cylinder := z.cyl0 + k * (g.tracks + g.guards) + t, track := t,
                 sector := (x + t * z.skew) % z.blocks })
    ∧ (∀ b w, totalBands g ≤ b → bandAddress g b w = none)
    ∧ ∀ r h x, h < g.heads → x < systemTrack g → systemAddress g ((r * g.heads + h) * systemTrack g + x) = (r, h, x)

/-! ### The extent map -/

/-- R41, R45, R46, R51, R52: after the removal of p to q an LBN outside p to q is mapped where it was, and one inside is
mapped nowhere; after a piece is inserted where its LBNs were removed, its LBNs are mapped at the piece's band and offsets and
every other LBN where it was. Removal and insertion keep the map's form, and each uses at most one record; what a removal
reports for a band is what its live LBNs fall by, and an insertion raises them by the piece's length. After a whole change the
map is the changed one, in the write phase and outside it, and the free record count is MAPCAP less its records, the reserved
count as before; that it is 0 where a rebuild left more records than MAPCAP is the model's choice (log entry 17). -/
def Obligations.MapChangesAreExact : Prop :=
  (∀ (t : List Extent) (p q x band offset : Nat) (e : Extent), p ≤ q → 1 ≤ e.length →
    mapsTo (removeRange p q t) x band offset = (!(decide (p ≤ x) && decide (x ≤ q)) && mapsTo t x band offset)
    ∧ mapsTo (insertPiece e (removeRange e.first (e.first + e.length - 1) t)) x band offset
      = if e.first ≤ x ∧ x < e.first + e.length then decide (band = e.band ∧ offset = e.offset + (x - e.first))
        else mapsTo t x band offset)
  ∧ (∀ (s : State) (cs : List MapChange), s.PhaseKept →
    let u := s.changeMap cs
    u.map.current = applyChanges s.map.current cs ∧ u.map.freeCount = s.mapCap - u.map.current.length
    ∧ u.map.reserved = s.map.reserved ∧ (s.map.writePhase = true → u.map.table = s.map.table))
  ∧ ∀ (t : List Extent) (p q b : Nat) (e : Extent), MapForm t → p ≤ q → 1 ≤ e.length → e.length ≤ Config.extentLimit →
    let u := removeRange e.first (e.first + e.length - 1) t
    MapForm (removeRange p q t) ∧ (removeRange p q t).length ≤ t.length + 1
    ∧ MapForm (insertPiece e u) ∧ (insertPiece e u).length ≤ u.length + 1
    ∧ liveIn (removeRange p q t) b + (((removedCounts p q t).filter fun x => decide (x.1 = b)).map fun x => x.2).sum
        = liveIn t b
    ∧ liveIn (insertPiece e u) b = liveIn u b + if e.band = b then e.length else 0

/-! ### Shock (section 5.4) -/

/-- R98, R100, R101: SHOCK_INPUT_CHANGE starts the filter at an assertion outside the mask and stops it at a deassertion;
SHOCK_MASK_END ends the mask of a READY channel and starts the filter of an assertion that has given no event yet;
SHOCK_WINDOW_EXPIRY takes the oldest event out of the window. The quiet timer's expiry under WRITE HOLD stops the timer alone;
RELEASE WRITE HOLD clears the latch and the window, and changes nothing where no hold is latched or the port's link is DOWN
(R142). Nothing else changes. The quiet timer's expiry without a hold, and a RELEASE WRITE HOLD in QUIET with the timer stopped,
start a verify on every affected band that has a suspect window and an owner, empty the list, and leave VERIFYING, or CLEAR where
no verify run is outstanding; only the sequencer and the media queue change. -/
def Obligations.ShockInputMaskWindowHoldAndQuiet : Prop :=
  (∀ (s : State) (p : Port),
    (∀ level, exec (.shockInputChange level) s = .next { s with seq :=
      if level = s.seq.shockPin then s.seq
      else { s.seq with shockPin := level, shockTaken := false, shockFilter := level && !s.seq.shockMask } })
    ∧ exec .shockMaskEnd s = .next { s with seq :=
      if s.seq.ready ∧ s.seq.shockMask then
        { s.seq with shockMask := false, shockFilter := s.seq.shockPin && !s.seq.shockTaken }
      else s.seq }
    ∧ exec .shockWindowExpiry s = .next { s with seq := { s.seq with window := s.seq.window.tail } }
    ∧ (s.seq.quietTimer = true → s.seq.writeHold = true →
        exec .quietTimerExpiry s = .next { s with seq := { s.seq with quietTimer := false } })
    ∧ (s.seq.writeHold = false ∨ (s.port p).linkUp = false → exec (.releaseWriteHold p) s = .next s)
    ∧ ((s.port p).linkUp = true → s.seq.writeHold = true → s.seq.shock ≠ .quiet ∨ s.seq.quietTimer = true →
        exec (.releaseWriteHold p) s = .next { s with seq := { s.seq with writeHold := false, window := [] } }))
  ∧ ∀ (s : State) (p : Port) (c : Instr),
    (c = .quietTimerExpiry ∧ s.seq.quietTimer = true ∧ s.seq.writeHold = false)
      ∨ (c = .releaseWriteHold p ∧ (s.port p).linkUp = true ∧ s.seq.writeHold = true ∧ s.seq.shock = .quiet
          ∧ s.seq.quietTimer = false) →
    ∃ t, exec c s = .next t ∧ t = { s with seq := t.seq, media := t.media }
      ∧ t.seq.affected = [] ∧ t.seq.quietTimer = false ∧ t.seq.writeHold = false
      ∧ s.seq.outstanding ≤ t.seq.outstanding
      ∧ t.seq.shock = (if t.seq.outstanding = 0 then .clear else .verifying)
      ∧ ∀ b ∈ s.seq.affected, ∀ r, s.band b = some r → r.suspect.isSome → r.owner.isSome →
          (∃ v ∈ t.seq.verifies, v.band = b)
          ∧ ∀ first last, r.suspect = some (first, last) → first ≤ last → 0 < (s.shape b).track →
            (∀ v ∈ s.seq.verifies, v.band ≠ b) →
            { band := b, first := first, last := last, remaining := last / (s.shape b).track - first / (s.shape b).track + 1
              fails := [] } ∈ t.seq.verifies

/-- R27, R79, R82, R97, R99, R100: a shock event while the filter runs makes the shock state QUIET, starts the quiet timer,
joins the window and latches WRITE HOLD at 8 events in it. With no write-class operation to abort nothing else happens; one in
TRANSFERRING is sent ABORT; in ABORTING nothing is sent; a SYSTEM WRITE in POSITIONING goes back to the queue; a run in
POSITIONING ends at the event. The map's contents, the geometry and the ports' registers stay. In ABORTING the channel's
answer, whatever it is, ends the operation as a shock abort. A SYSTEM WRITE goes back to the queue as it was; the band of a
write run, pad run or footer write gets its suspect window and joins the affected bands, and its fault count stays. A write
run or pad run skips, and the summary entries from its first offset to the new write pointer are NONE again; a skip to the pad
target or past it takes the placer from PADDING to NONE; a footer write leaves both pointers and the summary, to be built
again. -/
def Obligations.ShockEventsQuietAndAbort : Prop :=
  (∀ s : State, s.seq.shockFilter = true →
    ∃ u : State, exec .shockEvent s = .next u.react
      ∧ u.seq.shock = .quiet ∧ u.seq.quietTimer = true ∧ u.seq.shockFilter = false ∧ u.seq.shockTaken = true
      ∧ u.seq.window = s.seq.window ++ [s.seq.shockStamp]
      ∧ u.seq.writeHold = (s.seq.writeHold || decide (8 ≤ s.seq.window.length + 1))
      ∧ u.seq.ready = s.seq.ready ∧ u.geo = s.geo ∧ u.ports = s.ports ∧ u.notices = s.notices ∧ u.recovery = s.recovery
      ∧ u.map.table = s.map.table ∧ u.map.pendingApply = s.map.pendingApply ∧ u.map.runCounter = s.map.runCounter
      ∧ ((∀ f, s.seq.current = some f → writeClass f.op = false ∨ f.ended = true) →
          u = { s with seq := u.seq } ∧ u.seq.current = s.seq.current ∧ u.seq.state = s.seq.state
            ∧ u.seq.affected = s.seq.affected)
      ∧ ∀ f, s.seq.current = some f → writeClass f.op = true → f.ended = false →
          (s.seq.state = .transferring →
            u = { s with seq := u.seq } ∧ u.seq.state = .aborting ∧ u.seq.sent = some .abort ∧ u.seq.current = some f)
          ∧ (s.seq.state = .aborting → u = { s with seq := u.seq } ∧ u.seq.state = .aborting ∧ u.seq.sent = s.seq.sent)
          ∧ (s.seq.state = .positioning → f.op.kind = .systemWrite →
              u.media.queue = f.op :: s.media.queue ∧ u.seq.current = none ∧ u.seq.state = .positioning ∧ u.placers = s.placers)
          ∧ (s.seq.state = .positioning → f.op.kind ≠ .systemWrite →
              u.seq.current = some { f with ended := true } ∧ u.seq.state = .positioning ∧ u.media = s.media
              ∧ ∀ st r, s.runOf f.op = some (st, r) → r.band ∈ u.seq.affected ∧ (u.placer st).run = none))
  ∧ ∀ (s : State) (k j : Nat) (f : InFlight), s.seq.state = .aborting → s.seq.current = some f → writeClass f.op = true →
    exec .writeTransferGood s = exec (.aborted k) s ∧ exec (.writeFault j) s = exec (.aborted k) s
    ∧ exec .channelNotReadyAnswer s
        = exec (.aborted k) { s with seq := { s.seq with ready := false, shockMask := true, shockFilter := false } }
    ∧ (f.op.kind = .systemWrite → exec (.aborted k) s = .next (State.react { s with
        seq := { s.seq with state := .idle, current := none, sent := none, staleSeek := false }
        media := { s.media with queue := f.op :: s.media.queue } }))
    ∧ ∀ st r rec, s.runOf f.op = some (st, r) → s.band r.band = some rec →
      let window := some ((r.first / (s.shape r.band).track - 1) * (s.shape r.band).track, r.first + r.count - 1)
      let ends (rest : State → Prop) : Prop := ∃ u : State, exec (.aborted k) s = .next u.react
        ∧ u.seq.state = .idle ∧ u.seq.current = none ∧ r.band ∈ u.seq.affected ∧ (u.placer st).run = none
        ∧ u.map.table = s.map.table ∧ u.map.pendingApply = s.map.pendingApply ∧ u.ports = s.ports ∧ u.geo = s.geo ∧ rest u
      (f.op.kind = .writeRun → r.kind ≠ .footer → ends fun u => u.band r.band = some { rec with
          wp := skipTo (s.shape r.band) r.first, done := skipTo (s.shape r.band) r.first, suspect := window }
          ∧ ((u.placer st).summary = (s.placer st).summary.filter fun e =>
            decide (e.1 < r.first ∨ skipTo (s.shape r.band) r.first ≤ e.1))
          ∧ (u.placer st).pad = (match (s.placer st).pad with
            | .padding target => if target ≤ skipTo (s.shape r.band) r.first then .none else .padding target
            | pad => pad))
      ∧ (f.op.kind = .footerWrite → r.kind = .footer → ends fun u => u.band r.band = some { rec with suspect := window }
          ∧ (u.placer st).summary = (s.placer st).summary ∧ (u.placer st).band = (s.placer st).band
          ∧ (u.placer st).retention = (s.placer st).retention ∧ u.staging = s.staging)

/-! ### The channel link (section 5.3) -/

/-- R93, R94, R95, R96, R98, R99: SEEK_DONE sends the TRANSFER from the first block not yet done, and SEEK_FAILED the SEEK
again, up to 4 times; after the fourth a write operation is handled as a write fault after 0 blocks, and of a read the blocks
not delivered are unrecovered (that those delivered before a wait for readiness stay delivered is the model's choice, log
entry 14). A NOT READY notice takes the readiness and puts the shock mask in force; a NOT READY answer to a SEEK or TRANSFER
also makes the sequencer WAITING READY. The answer to the SEEK of an operation that a shock ended in POSITIONING returns the
sequencer to IDLE, and is otherwise disregarded but for the readiness. Nothing else changes. A READ ERROR at a block with
fewer than 4 retries keeps the blocks before it and sends a TRANSFER from that block with its retry count raised (from 0 where
another block was retried before); at 4 retries the block is unrecovered and the read goes on with the next, if one is left. -/
def Obligations.SeekAnswersReadErrorsAndReadinessLost : Prop :=
  ((∀ (s : State) (f : InFlight), s.seq.state = .positioning → s.seq.current = some f → s.seq.staleSeek = false →
    f.ended = false →
    exec .seekDone s = .next { s with seq := { s.seq with
        state := .transferring
        sent := some (if writeClass f.op then
            .writeTransfer ((f.sector + f.next) % f.trackBlocks) (f.op.count - f.next) (s.writeBlocks f.op)
          else .readTransfer ((f.sector + f.next) % f.trackBlocks) (f.op.count - f.next)) } }
    ∧ (f.seekRetries < 4 →
        exec .seekFailed s = .next { s with seq := { s.seq with
          current := some { f with seekRetries := f.seekRetries + 1 }, sent := some (.seek f.cylinder f.head) } })
    ∧ (4 ≤ f.seekRetries → writeClass f.op = true →
        exec .seekFailed s = exec (.writeFault 0) { s with seq := { s.seq with state := .transferring } })
    ∧ (4 ≤ f.seekRetries → writeClass f.op = false → ∃ u : State, exec .seekFailed s = .next u.react
        ∧ u = { s with seq := { s.seq with state := .idle, current := none, sent := none } }.readDone f.op
            (f.delivered ++ List.replicate (f.op.count - f.next) none) f.discard false))
  ∧ ∀ s : State,
    exec .notReadyNotice s = .next { s with seq := { s.seq with ready := false, shockMask := true, shockFilter := false } }
    ∧ (s.seq.state = .transferring
        ∨ (s.seq.state = .positioning ∧ s.seq.staleSeek = false ∧ ∀ f, s.seq.current = some f → f.ended = false) →
      exec .channelNotReadyAnswer s = .next { s with seq := { s.seq with
        ready := false, shockMask := true, shockFilter := false, state := .waitingReady, sent := none } })
    ∧ (s.seq.state = .positioning → (s.seq.staleSeek = true ∨ ∃ f, s.seq.current = some f ∧ f.ended = true) →
      exec .seekDone s = .next { s with seq := { s.seq with state := .idle, current := none, sent := none, staleSeek := false } }
      ∧ exec .seekFailed s = exec .seekDone s
      ∧ exec .channelNotReadyAnswer s = .next { s with seq := { s.seq with
          state := .idle, current := none, sent := none, staleSeek := false, ready := false, shockMask := true
          shockFilter := false } }))
  ∧ ∀ (s : State) (f : InFlight) (blocks : List MediaBlock), s.seq.state = .transferring → s.seq.current = some f →
    writeClass f.op = false → f.next + blocks.length < f.op.count →
    let i := f.next + blocks.length
    let done := match f.retry with
      | some (j, n) => if j = i then n else 0
      | none => 0
    (done < 4 → exec (.readError blocks) s = .next { s with seq := { s.seq with
        current := some { f with delivered := f.delivered ++ blocks.map some, next := i, retry := some (i, done + 1) }
        sent := some (.readTransfer ((f.sector + i) % f.trackBlocks) (f.op.count - i)) } })
    ∧ (4 ≤ done → i + 1 < f.op.count → exec (.readError blocks) s = .next { s with seq := { s.seq with
        current := some { f with delivered := f.delivered ++ blocks.map some ++ [none], next := i + 1, retry := none }
        sent := some (.readTransfer ((f.sector + (i + 1)) % f.trackBlocks) (f.op.count - (i + 1))) } })
    ∧ (4 ≤ done → i + 1 = f.op.count → exec (.readError blocks) s = .next (State.react
        ({ s with seq := { s.seq with state := .idle, current := none, sent := none, staleSeek := false } }.readDone f.op
          (f.delivered ++ blocks.map some ++ [none]) f.discard false)))

/-- R12, R16, R93, R94: a ready report stores the cylinder count, whatever was stored, in every part state, and changes
neither the record in force nor the part state; the channel is READY with the mask in force; an operation that waited for
readiness seeks again; a CONFIG CLOSE that waited is decided by check 21 against the count. The 30-s hold of a CONFIG CLOSE
that waits ends it NOT READY, with the draft EDITABLE and its contents as they were. -/
def Obligations.ReadyReportStoresTheCylinderCount : Prop :=
  (∀ (s : State) (n : Nat), ∃ t, exec (.readyReport n) s = .next t
    ∧ t.geo.cylinders = some n ∧ t.geo.inForce = s.geo.inForce ∧ t.geo.checkWord = s.geo.checkWord
    ∧ t.geo.draft = s.geo.draft ∧ t.recovery.part = s.recovery.part
    ∧ t.seq.ready = true ∧ t.seq.shockMask = true ∧ t.seq.shockFilter = false
    ∧ (∀ f, s.seq.state = .waitingReady → s.seq.current = some f →
        t.seq.state = .positioning ∧ t.seq.current = some f ∧ t.seq.sent = some (.seek f.cylinder f.head))
    ∧ ((∀ w, s.recovery.close = some w → w.step ≠ .awaitReady) →
        t = { s with geo := { s.geo with cylinders := some n }, seq := t.seq })
    ∧ ∀ w, s.recovery.close = some w → w.step = .awaitReady →
        if lastCylinder w.record < n then t.geo.status = s.geo.status ∧ t.recovery.close.isSome
        else t.geo.status = .editable ∧ t.recovery.close = none)
  ∧ ∀ (s : State) (w : CloseWork) (c : Command), s.recovery.close = some w → w.step = .awaitReady →
    s.command w.port w.cmd = some c →
    ∃ t, exec .configCloseHoldExpiry s = .next t ∧ t.geo = { s.geo with status := .editable }
      ∧ t.recovery = { s.recovery with close := none }
      ∧ (∃ d ∈ (t.port w.port).list, d.id = w.cmd
          ∧ d.status = some { status := .notReady, blocks := 0, result0 := 0, result1 := 0 })
      ∧ t.port (otherPort w.port) = s.port (otherPort w.port) ∧ t.map = s.map ∧ t.media = s.media

/-- R26, R27, R79, R82, R93, R94, R124, R130, R133, R134, R169: with the channel NOT READY a queued operation whose readiness
timer expires leaves the queue and completes NOT READY. A write run or pad run skips without a suspect window or a fault, its
slots return to the head of the queue, and the summary entries of its offsets and of those skipped are NONE again, and a skip
to the pad target or past it takes the placer from PADDING to NONE; a footer write is to be built again; each block of a
verify run fails; each block of a READ RUN is not read and its reference is dropped. The Recovery Unit issues its operation
again, without a reissue counted: a read of a geometry copy in LOADING (R124), a read of the rebuild (R134, section 7.5), a
checkpoint's write (R130), a journal write (R133) and a CONFIG CLOSE's write (R169). That the rewrite of a geometry copy is
not issued again is the model's choice (log entry 15). The operation in flight whose wait for readiness expires completes
likewise, and the sequencer is IDLE. In FAULTED the queued operations stay (R89; log entry 28). -/
def Obligations.NotReadyCompletions : Prop :=
  (∀ (s : State) (op : MediaOp) (before after : List MediaOp), s.media.queue = before ++ op :: after →
    (∀ m ∈ before, m.id ≠ op.id) → s.seq.ready = false →
    let leaves (rest : State → Prop) : Prop :=
      ∃ u : State, exec (.readinessTimerExpiry op.id) s = .next u.react ∧ u.media.queue = before ++ after ∧ rest u
    let room : Prop :=
      before.length + after.length + (if s.seq.current.isSome then 1 else 0) + s.media.entryWait.length < Config.queueLimit
    (s.recovery.part = .faulted → exec (.readinessTimerExpiry op.id) s = .next s)
    ∧ (s.recovery.part ≠ .faulted →
      (∀ (st : Stream) (r : OutstandingRun) (rec : BandRecord), op.kind = .writeRun → s.runOf op = some (st, r) →
        r.kind ≠ .footer → s.band r.band = some rec → (∀ n ∈ (s.placer st).retention, n ∉ r.slots ++ (s.placer st).queue) →
        leaves fun u => (u.placer st).run = none ∧ (u.placer st).queue = r.slots ++ (s.placer st).queue
          ∧ ((u.placer st).summary = (s.placer st).summary.filter fun e =>
            decide (e.1 < r.first ∨ skipTo (s.shape r.band) r.first ≤ e.1))
          ∧ (u.placer st).pad = (match (s.placer st).pad with
            | .padding target => if target ≤ skipTo (s.shape r.band) r.first then .none else .padding target
            | pad => pad)
          ∧ u.band r.band = some { rec with wp := skipTo (s.shape r.band) r.first, done := skipTo (s.shape r.band) r.first }
          ∧ u.map.table = s.map.table ∧ u.map.pendingApply = s.map.pendingApply ∧ u.map.reserved = s.map.reserved - r.reserved
          ∧ u.seq = s.seq ∧ u.ports = s.ports ∧ u.geo = s.geo ∧ u.recovery = s.recovery)
      ∧ (∀ (st : Stream) (r : OutstandingRun) (rec : BandRecord), op.kind = .footerWrite → s.runOf op = some (st, r) →
        r.kind = .footer → s.openBand st = some (r.band, rec) → rec.wp = (s.shape r.band).size →
        rec.done = (s.shape r.band).capacity → rec.suspect = none →
        leaves fun u => (u.placer st).run = none ∧ u.wantsFooter st = true ∧ u.bands = s.bands ∧ u.map = s.map
          ∧ u.staging = s.staging ∧ u.seq = s.seq ∧ u.ports = s.ports ∧ u.recovery = s.recovery)
      ∧ (op.kind = .verifyRun → (∀ v ∈ s.seq.verifies, v.band = opBand op → 1 < v.remaining) →
        leaves fun u => u.bands = s.bands ∧ u.staging = s.staging ∧ u.map = s.map ∧ u.ports = s.ports
          ∧ u.seq.verifies = s.seq.verifies.map fun v => if v.band = opBand op then
              { v with remaining := v.remaining - 1, fails := v.fails ++ countFrom (opFirst op) op.slots.length } else v)
      ∧ (∀ (p : Port) (c : Command) (slots : List Nat) (rec : BandRecord) (i a b k : Nat) (m : Bool)
          (l : List (Nat × FailedBlock)), op.kind = .readRun → op.origin = .port p → s.command p op.command = some c →
        c.work = .read i m a b k l → op.slots = slots.map some → op.blocks.length = slots.length →
        s.band (opBand op) = some rec → rec.state = .opened →
        leaves fun u => u.band (opBand op) = some { rec with refs := rec.refs - 1 } ∧ u.map = s.map ∧ u.seq = s.seq
          ∧ (u.port p).pushes = (s.port p).pushes
          ∧ ∃ d ∈ (u.port p).list, d.id = op.command ∧ d.work = .read i m a b k (l ++ op.blocks.map fun x => (x, .notRead)))
      ∧ (((op.kind = .systemRead ∧ op.task = .rebuildRead) ∨ (op.kind = .readRun ∧ op.origin = .recovery))
          ∧ s.recovery.part = .rebuilding ∧ s.recovery.rebuild.isSome
          ∨ op.kind = .systemRead ∧ s.recovery.part = .loading ∧ (∃ second, op.task = .loadGeometry second) → room →
        exec (.readinessTimerExpiry op.id) s = .next (State.react { s with media := { s.media with
          queue := before ++ after ++ [{ op with id := s.media.stamp, arrival := s.media.stamp, aged := false }]
          stamp := s.media.stamp + 1 } }))
      ∧ (op.kind = .systemWrite → op.task = .rewriteCopy → leaves fun u => u.recovery = s.recovery ∧ u.geo = s.geo)
      ∧ (op.kind = .systemWrite → room →
        let again (place : Nat) (rest : State → MediaOp → Prop) : Prop :=
          ∃ (u : State) (m : MediaOp), exec (.readinessTimerExpiry op.id) s = .next u.react
            ∧ u.media.queue = before ++ after ++ [m] ∧ m.kind = .systemWrite ∧ m.task = op.task ∧ m.place = .system place
            ∧ u.geo = s.geo ∧ u.ports = s.ports ∧ rest u m
        let c := s.recovery.checkpoint
        (∀ (g : Geometry) (k : Nat) (rest : List Nat), op.task = .journalWrite → s.geo.inForce = some g →
          s.recovery.journalWrite.blocks = k :: rest → again (journalBase g + k) fun u _ => u.recovery = s.recovery)
        ∧ (∀ g, op.task = .checkpointWrite → s.geo.inForce = some g →
          again (if c.cursor < imageBlocks g then imageBase g c.slot + c.cursor else imageBase g c.slot) fun u m =>
            u.recovery = { s.recovery with checkpoint := { c with count := m.count } } ∧ u.map = s.map)
        ∧ ∀ w, op.task = .closeWrite → s.recovery.close = some w → w.step ≠ .awaitReady → again (closeIndex w) fun u _ =>
            ∃ x, u.recovery = { s.recovery with close := some x } ∧ x.port = w.port ∧ x.cmd = w.cmd ∧ x.record = w.record
              ∧ x.reissues = w.reissues ∧ closeIndex x = closeIndex w)))
  ∧ ∀ (s : State) (f : InFlight), s.seq.state = .waitingReady → s.seq.current = some f →
    (s.seq.ready = false → s.recovery.part ≠ .faulted → writeClass f.op = true ∨ (f.delivered = [] ∧ f.discard = false) →
      exec .readyWaitExpiry s = exec (.readinessTimerExpiry f.op.id) { s with
        seq := { s.seq with state := .idle, current := none, sent := none, staleSeek := false }
        media := { s.media with queue := f.op :: s.media.queue } })
    ∧ ∀ (st : Stream) (r : OutstandingRun) (rec : BandRecord), f.op.kind = .writeRun → s.runOf f.op = some (st, r) →
      r.kind ≠ .footer → s.band r.band = some rec → (∀ n ∈ (s.placer st).retention, n ∉ r.slots ++ (s.placer st).queue) →
      ∃ u : State, exec .readyWaitExpiry s = .next u.react
        ∧ (u.placer st).run = none ∧ (u.placer st).queue = r.slots ++ (s.placer st).queue
        ∧ ((u.placer st).summary = (s.placer st).summary.filter fun e =>
            decide (e.1 < r.first ∨ skipTo (s.shape r.band) r.first ≤ e.1))
        ∧ (u.placer st).pad = (match (s.placer st).pad with
          | .padding target => if target ≤ skipTo (s.shape r.band) r.first then .none else .padding target
          | pad => pad)
        ∧ u.band r.band = some { rec with wp := skipTo (s.shape r.band) r.first, done := skipTo (s.shape r.band) r.first }
        ∧ u.map.table = s.map.table ∧ u.map.pendingApply = s.map.pendingApply ∧ u.map.reserved = s.map.reserved - r.reserved
        ∧ u.seq.state = .idle ∧ u.seq.current = none ∧ u.seq.sent = none ∧ u.ports = s.ports ∧ u.geo = s.geo
        ∧ u.recovery = s.recovery

/-- R25, R28, R29, R47, R48, R49, R50, R76, R78, R84, R95, R116, R128: when the transfer of a run of HOST blocks is answered
GOOD, the sequencer is IDLE, the placer has no outstanding run, the band's done mark is the run's end, and the map holds each
block that is not superseded at its own offset and every other LBN where it was. The GOOD answer to a run of one RELOCATED
block puts its LBN at the run's place where the map still has it at the block's source and no newer copy is staged. With a
newer copy staged the map stays, and the entry goes back to the Cleaner's recheck list; with the LBN elsewhere or nowhere the
block is dead. A RE-PLACED block is judged by its damaged place alone. A block that is not applied frees its slot. When a
footer write is answered GOOD the band becomes FULL with its footer and the close counter's value, or EMPTY at once where it
has neither live blocks nor read references; the counter advances, wrapping; the close count rises, and at 256 a checkpoint is
requested, which starts, joins the one that is QUIESCING, or is due after the one under way; the placer has no band, no run
and an empty retention list, and is not PADDING; the map's contents stay. -/
def Obligations.GoodWritesAreAppliedAndCloseBands : Prop :=
  ((∀ (s : State) (f : InFlight) (st : Stream) (r : OutstandingRun) (rec : BandRecord),
    s.seq.state = .transferring → s.seq.current = some f → f.op.kind = .writeRun → s.runOf f.op = some (st, r) →
    r.kind = .data → 0 < r.reserved → s.band r.band = some rec → rec.state = .opened → s.PhaseKept →
    (∀ x ∈ s.slotsOf r.slots, x.kind = some .host) → ((s.slotsOf r.slots).map fun x => x.lbn).Nodup →
    ∃ u : State, exec .writeTransferGood s = .next u.react
      ∧ u.seq.state = .idle ∧ u.seq.current = none ∧ (u.placer st).run = none
      ∧ (∃ rec', u.band r.band = some rec' ∧ rec'.state = .opened ∧ rec'.done = r.first + r.count ∧ rec'.wp = rec.wp)
      ∧ (∀ i x, (s.slotsOf r.slots)[i]? = some x → x.superseded = false →
          mapsTo u.map.current x.lbn r.band (r.first + i) = true)
      ∧ (∀ y b o, (∀ x ∈ s.slotsOf r.slots, x.superseded = false → x.lbn ≠ y) →
          mapsTo u.map.current y b o = mapsTo s.map.current y b o)
      ∧ u.map.writePhase = s.map.writePhase ∧ u.map.runCounter = s.map.runCounter
      ∧ u.ports = s.ports ∧ u.geo = s.geo ∧ u.notices = s.notices)
  ∧ ∀ (s : State) (f : InFlight) (st : Stream) (r : OutstandingRun) (rec : BandRecord) (n b o : Nat) (x : Slot),
    s.seq.state = .transferring → s.seq.current = some f → f.op.kind = .writeRun → s.runOf f.op = some (st, r) →
    r.kind = .data → 0 < r.reserved → s.band r.band = some rec → rec.state = .opened → s.PhaseKept →
    s.recovery.part ≠ .faulted → r.slots = [n] → s.slot n = some x →
    let goes (rest : State → Prop) : Prop :=
      ∃ u : State, exec .writeTransferGood s = .next u.react ∧ u.seq.state = .idle ∧ (u.placer st).run = none ∧ rest u
    let commits : Prop := goes fun u => mapsTo u.map.current x.lbn r.band r.first = true
      ∧ (∀ y b' o', y ≠ x.lbn → mapsTo u.map.current y b' o' = mapsTo s.map.current y b' o')
      ∧ u.cleaner.recheck = s.cleaner.recheck
    let drops (again : List (Nat × Nat)) : Prop := goes fun u => u.map.current = s.map.current
      ∧ u.cleaner.recheck = s.cleaner.recheck ++ again ∧ (x.pins = 0 → ∀ z ∈ u.staging.slots, z.number ≠ n)
    (x.kind = some .relocated → x.source = some (b, o) →
      (mapsTo s.map.current x.lbn b o = true → s.indexed x.lbn = none → commits)
      ∧ (mapsTo s.map.current x.lbn b o = true → (s.indexed x.lbn).isSome → drops [(o, x.lbn)])
      ∧ (mapsTo s.map.current x.lbn b o = false → drops []))
    ∧ (x.kind = some .replaced → x.damaged = some (b, o) →
      (mapsTo s.map.current x.lbn b o = true → commits) ∧ (mapsTo s.map.current x.lbn b o = false → drops [])))
  ∧ ∀ (s : State) (f : InFlight) (st : Stream) (r : OutstandingRun) (rec : BandRecord),
    s.seq.state = .transferring → s.seq.current = some f → f.op.kind = .footerWrite → s.runOf f.op = some (st, r) →
    r.kind = .footer → s.band r.band = some rec → rec.state = .opened →
    ∃ u : State, exec .writeTransferGood s = .next u.react
      ∧ u.seq.state = .idle ∧ u.seq.current = none
      ∧ u.band r.band = some (if rec.live = 0 ∧ rec.refs = 0 then emptyBand
          else { rec with state := .full, done := (s.shape r.band).size, owner := none, footer := true,
                          closeNumber := some s.bands.closeCounter })
      ∧ u.bands.closeCounter = s.bands.closeCounter + 1
      ∧ (let c := s.recovery.closeCount + 1
        (c < 256 → u.recovery = { s.recovery with closeCount := c })
        ∧ (c = 256 →
          (s.recovery.checkpoint.state = .idle → u.recovery.checkpoint.state ≠ .idle ∧ u.recovery.joined = [])
          ∧ (s.recovery.checkpoint.state = .quiescing → u.recovery = { s.recovery with closeCount := 256 })
          ∧ (s.recovery.checkpoint.state = .writing ∨ s.recovery.checkpoint.state = .finishing →
              u.recovery = { s.recovery with closeCount := 256, due := true })))
      ∧ (u.placer st).band = none ∧ (u.placer st).run = none ∧ (u.placer st).retention = [] ∧ (u.placer st).summary = []
      ∧ (u.placer st).pad = (match (s.placer st).pad with
        | .padding _ => .none
        | pad => pad)
      ∧ u.map.table = s.map.table ∧ u.map.pendingApply = s.map.pendingApply ∧ u.map.runCounter = s.map.runCounter
      ∧ u.ports = s.ports ∧ u.geo = s.geo ∧ u.notices = s.notices

/-- R26, R27, R30, R31, R79, R82, R95: a write fault in the transfer of a write run, pad run or footer write, after however
many blocks, counts none of them: the band's fault count rises, it has its suspect window and a verify is in progress on it. A
write run or pad run skips to the next track, its slots return to the head of the queue, the summary entries from its first
offset to the new write pointer are NONE again, a skip to the pad target or past it takes the placer from PADDING to NONE, its
reservation is released and the map's contents stay. A footer write leaves both pointers, the summary and the HELD slots as
they are, to be built again. -/
def Obligations.WriteFaultSkipsAndVerifies : Prop :=
  ∀ (s : State) (k : Nat) (f : InFlight) (st : Stream) (r : OutstandingRun) (rec : BandRecord),
    s.seq.state = .transferring → s.seq.current = some f → s.runOf f.op = some (st, r) → s.band r.band = some rec →
    rec.owner.isSome →
    let window := some ((r.first / (s.shape r.band).track - 1) * (s.shape r.band).track, r.first + r.count - 1)
    let ends (rest : State → Prop) : Prop := ∃ u : State, exec (.writeFault k) s = .next u.react
      ∧ u.seq.state = .idle ∧ u.seq.current = none ∧ u.seq.shock = s.seq.shock ∧ u.seq.writeHold = s.seq.writeHold
      ∧ (∃ v ∈ u.seq.verifies, v.band = r.band) ∧ (u.placer st).run = none ∧ u.ports = s.ports
      ∧ ((∀ v ∈ s.seq.verifies, v.band ≠ r.band) → 0 < (s.shape r.band).track → 0 < r.count → ∃ left,
          { band := r.band, first := (r.first / (s.shape r.band).track - 1) * (s.shape r.band).track
            last := r.first + r.count - 1, remaining := left, fails := [] } ∈ u.seq.verifies
          ∧ left = (r.first + r.count - 1) / (s.shape r.band).track - (r.first / (s.shape r.band).track - 1) + 1) ∧ u.geo = s.geo
      ∧ u.recovery = s.recovery ∧ rest u
    (f.op.kind = .writeRun → r.kind ≠ .footer → (∀ n ∈ (s.placer st).retention, n ∉ r.slots ++ (s.placer st).queue) →
      ends fun u => u.band r.band = some { rec with
          wp := skipTo (s.shape r.band) r.first, done := skipTo (s.shape r.band) r.first, faults := rec.faults + 1
          suspect := window }
        ∧ (u.placer st).queue = r.slots ++ (s.placer st).queue
        ∧ ((u.placer st).summary = (s.placer st).summary.filter fun e =>
            decide (e.1 < r.first ∨ skipTo (s.shape r.band) r.first ≤ e.1))
        ∧ (u.placer st).pad = (match (s.placer st).pad with
          | .padding target => if target ≤ skipTo (s.shape r.band) r.first then .none else .padding target
          | pad => pad)
        ∧ u.map.table = s.map.table ∧ u.map.pendingApply = s.map.pendingApply
        ∧ u.map.reserved = s.map.reserved - r.reserved)
    ∧ (f.op.kind = .footerWrite → r.kind = .footer →
      ends fun u => u.band r.band = some { rec with faults := rec.faults + 1, suspect := window }
        ∧ (u.placer st).queue = (s.placer st).queue ∧ (u.placer st).summary = (s.placer st).summary
        ∧ (u.placer st).retention = (s.placer st).retention ∧ (u.placer st).band = (s.placer st).band
        ∧ u.map = s.map ∧ u.staging = s.staging)

/-- R31, R32, R83, R84, R101, R102, R103, R104: the verify of a band's suspect window is one VERIFY RUN for each of its
tracks, over the window's offsets there, from the band's owner stream, with the HELD slot of the retention list at each offset
or none; the runs to complete are counted for the band, and where a quiet timer's expiry starts it among the outstanding ones
too. A band with a verify in progress is not given a second one. The answer to the last verify run of a band's window. A block
fails whose data or tag's LBN differs from its HELD slot's; the HELD slots at failed offsets are RE-PLACED, GATHERED at the
head of the queue with their old place as damaged place; the window is removed, and VERIFYING ends with the last counted run.
A band with 3 write faults becomes RETIRED with its RETIRE record appended, its placer has no band and an empty retention list
and is not PADDING, and with blocks live it joins the Cleaner's retired list as AWAITING. That a tag counts with the LBN it
carries, whatever its kind and check word, is the model's choice (log entry 14). -/
def Obligations.VerifiesReadTheirTracksAndReplaceOrRetire : Prop :=
  (∀ (s : State) (b first last : Nat) (r : BandRecord) (st : Stream) (counted : Bool), s.band b = some r →
    r.suspect = some (first, last) → r.owner = some st →
    let t := s.startVerify b counted
    let track := (s.shape b).track
    ((∃ v ∈ s.seq.verifies, v.band = b) → t = s)
    ∧ ((∀ v ∈ s.seq.verifies, v.band ≠ b) → 0 < track → first ≤ last →
      let n := last / track - first / track + 1
      t = { s with seq := t.seq, media := t.media }
      ∧ t.seq = { s.seq with
          outstanding := s.seq.outstanding + (if counted then n else 0)
          verifies := s.seq.verifies ++ [{ band := b, first := first, last := last, remaining := n, fails := [] }] }
      ∧ (s.media.queue.length + (if s.seq.current.isSome then 1 else 0) + s.media.entryWait.length + n ≤ Config.queueLimit →
        ∃ runs : List MediaOp, t.media.queue = s.media.queue ++ runs ∧ t.media.entryWait = s.media.entryWait ∧ runs.length = n
          ∧ ∀ i op, runs[i]? = some op →
            let o := max first ((first / track + i) * track)
            op.kind = .verifyRun ∧ op.origin = .stream st ∧ op.counted = counted ∧ op.place = .band b o
            ∧ op.count = min (last + 1) ((first / track + i + 1) * track) - o ∧ op.slots.length = op.count
            ∧ ∀ k, k < op.count →
              let at_ (m : Nat) : Prop := m ∈ (s.placer st).retention ∧ ∃ x place, s.slot m = some x ∧ x.place = some place
                ∧ place.offset = o + k
              (∀ m, op.slots[k]? = some (some m) → at_ m) ∧ (op.slots[k]? = some none → ∀ m, ¬at_ m))))
  ∧ ∀ (s : State) (f : InFlight) (v : Verify) (rec : BandRecord) (st : Stream) (blocks : List MediaBlock),
    s.seq.state = .transferring → s.seq.current = some f → f.op.kind = .verifyRun → f.next = 0 → f.delivered = [] →
    blocks.length = f.op.count → f.op.slots.length = f.op.count → s.seq.verifies = [v] → v.band = opBand f.op →
    v.remaining = 1 → s.band v.band = some rec → rec.owner = some st → (s.placer st).retention.Nodup →
    (∀ n ∈ (s.placer st).retention, n ∉ (s.placer st).queue) →
    let fails := v.fails ++ ((countFrom (opFirst f.op) f.op.count).zip (f.op.slots.zip blocks)).filterMap fun x =>
      match x.2.1.bind s.slot with
      | none => none
      | some y => if x.2.2.content = .user y.data ∧ (x.2.2.tag.map fun t => t.entry.lbn) = some y.lbn then none else some x.1
    let failed := (s.placer st).retention.filter fun n =>
      ((s.slot n).bind fun y => y.place).any fun place => decide (place.offset ∈ fails)
    ∃ u : State, exec (.readTransferGood blocks) s = .next u.react
      ∧ u.seq.state = .idle ∧ u.seq.current = none ∧ u.seq.verifies = []
      ∧ u.seq.outstanding = s.seq.outstanding - (if f.op.counted then 1 else 0)
      ∧ u.seq.shock = (if s.seq.shock = .verifying ∧ u.seq.outstanding = 0 then .clear else s.seq.shock)
      ∧ (u.placer st).queue = failed ++ (s.placer st).queue
      ∧ (∀ n ∈ failed, ∀ y, s.slot n = some y → u.slot n = some { y with
          state := .gathered, kind := some .replaced, source := none, place := none
          damaged := y.place.map fun place => (place.band, place.offset) })
      ∧ u.map.table = s.map.table ∧ u.map.pendingApply = s.map.pendingApply ∧ u.ports = s.ports ∧ u.geo = s.geo
      ∧ (rec.faults ≠ 3 → u.band v.band = some { rec with suspect := none } ∧ (u.placer st).band = (s.placer st).band
          ∧ u.recovery = s.recovery)
      ∧ (rec.faults = 3 → s.recovery.journal.length < Config.journalPlaces →
          u.band v.band = some { rec with suspect := none, state := .retired, owner := none, footer := false, closeNumber := none }
          ∧ (u.placer st).band = none ∧ (u.placer st).run = none ∧ (u.placer st).retention = []
          ∧ (u.placer st).pad = (match (s.placer st).pad with
            | .padding _ => .none
            | pad => pad)
          ∧ (∃ e ∈ u.recovery.journal, e.record = { sequence := s.recovery.nextSequence, kind := .retire v.band })
          ∧ (s.recovery.part ≠ .faulted → 0 < rec.live → (v.band, .awaiting) ∈ u.cleaner.retired))

/-- R29, R33, R64, R87, R96, R159, R165: when the transfer of a port's READ RUN ends, by a GOOD answer or by a READ ERROR that
leaves its last block unrecovered, its band's read reference is dropped, which empties a FULL band with nothing live at its last
reference. Its READ gets a push of each block read at the place of the command's pieces; each unrecovered block is a failed block of
the READ, and its READING slot is FREE. Where the data is to be discarded no push is sent and the ports stay. The answer to a push
takes it off the outstanding ones and counts it: a block of a READ, or the entries of a page of a BAND REPORT; its READING slot
becomes FREE, or its slot's pin is dropped. -/
def Obligations.PortReadsArePushedAndCounted : Prop :=
  (∀ (s : State) (f : InFlight) (p : Port) (c : Command) (slots : List Nat) (blocks : List MediaBlock) (rec : BandRecord),
    s.seq.state = .transferring → s.seq.current = some f → f.op.kind = .readRun → f.op.origin = .port p →
    f.delivered.length = f.next → f.op.slots = slots.map some → slots.length = f.op.count → slots.Nodup →
    f.op.blocks.length = f.op.count → s.command p f.op.command = some c → s.band (opBand f.op) = some rec →
    (∀ n ∈ slots, ∀ y, s.slot n = some y → y.pins = 0) →
    let empties : Bool := decide (rec.state = .full) && decide (rec.live = 0) && decide (rec.refs ≤ 1)
    let ends (i : Instr) (xs : List (Option MediaBlock)) : Prop := ∃ u : State, exec i s = .next u.react
      ∧ u.seq.state = .idle ∧ u.seq.current = none
      ∧ u.band (opBand f.op) = some (if empties then emptyBand else { rec with refs := rec.refs - 1 })
      ∧ u.bands.emptyCount = s.bands.emptyCount + (if empties then 1 else 0)
      ∧ (f.discard = false → (u.port p).pushes = (s.port p).pushes
            ++ ((f.op.blocks.zip slots).zip xs).filterMap (fun x => x.2.map fun m =>
              { cmd := f.op.command, index := x.1.1, address := blockAddress c.record.pieces x.1.1
                block := contentData m.content, slot := some x.1.2 })
          ∧ (∀ i m a b k l, c.work = .read i m a b k l → ∃ d ∈ (u.port p).list, d.id = f.op.command
              ∧ d.work = .read i m a b k (l ++ (f.op.blocks.zip xs).filterMap fun x =>
                  if x.2 = none then some (x.1, .unrecovered) else none))
          ∧ ∀ n, (n, none) ∈ slots.zip xs → ∀ z ∈ u.staging.slots, z.number ≠ n)
      ∧ (f.discard = true → u.ports = s.ports)
      ∧ u.map = s.map ∧ u.geo = s.geo ∧ u.recovery = s.recovery
    (f.next + blocks.length = f.op.count → ends (.readTransferGood blocks) (f.delivered ++ blocks.map some))
    ∧ (f.next + blocks.length + 1 = f.op.count → 4 ≤ (f.deliver blocks).retries →
        ends (.readError blocks) (f.delivered ++ blocks.map some ++ [none])))
  ∧ ∀ (s : State) (p : Port) (x : Push) (c : Command), (s.port p).pushes = [x] → s.command p x.cmd = some c →
    (s.port p).list = [c] →
    ∃ u : State, exec (.pushAnswer p x.cmd x.index) s = .next u.react ∧ (u.port p).pushes = []
      ∧ (∀ i m a b k l, c.work = .read i m a b k l → (u.port p).list = [{ c with work := .read i m a b (k + 1) l }])
      ∧ (∀ i read n, c.work = .report i read n → (u.port p).list = [{ c with
          work := .report i read (n + min 128 (c.record.count.toNat - 128 * x.index)) }])
      ∧ (∀ n y, x.slot = some n → s.slot n = some y → y.state = .reading → y.pins = 0 →
          ∀ z ∈ u.staging.slots, z.number ≠ n)
      ∧ (∀ n y, x.slot = some n → s.slot n = some y → y.state ≠ .reading → y.releaseDue = false →
          u.slot n = some { y with pins := y.pins - 1 })
      ∧ u.map = s.map ∧ u.geo = s.geo ∧ u.seq = s.seq ∧ u.port (otherPort p) = s.port (otherPort p)

/-! ### Arbitration (section 5.2) -/

/-- R68, R72, R86, R88, R89, R90, R91, R94: with the sequencer IDLE, the channel READY and the part not FAULTED, a grant takes the
chosen operation out of the waiting ones, positions the sequencer at its address and sends the SEEK; otherwise nothing is
granted. What is chosen was queued, and is no write-class operation while the shock state is not CLEAR or WRITE HOLD is
latched. OPERATION_AGED sets the aged flag of the operation it names and changes nothing else; where an aged operation is
eligible, the choice is an aged one that arrived no later, in class 1, and no turn moves. Below it the choice goes to the
oldest of class 2; with the cleaner share count at 7 to the oldest of class 5; then to the oldest class 3 operation of the
first origin, counted from the class 3 turn, that has one; then to the first stream's, counted from the class 4 turn; and then
to class 5. The turn of class 3 or 4 moves to the origin or stream after the one granted (past the Cleaner outside URGENT),
and a grant moves the share count as R91 says. That the row changes nothing where no grant can be made is the model's choice
(log entry 3). At a freed place an operation at the head of the entry wait list enters the queue with its arrival at that
event. A placer at the head builds there the run it would build, a footer before a pad run before a data run, and that run's
operation enters the queue; one that may not build leaves the list, for the record wait list where its run's records are
short, frees the superseded slots that a data run it would build passes over, and the place passes to the next waiter. That it
does so also in QUIESCING and without a run number is the model's choice (log entry 22). With 64 operations in the queue, the one in flight counted, none enters (the
row then changes nothing, log entry 3). -/
def Obligations.TheArbiterGrantsAndTheOldestWaiterEnters : Prop :=
  (∀ s : State,
    (∀ (m : MediaOp) (rest : List Waiter), s.queueCount < 64 →
      let enters : Prop := exec .mediaQueueEntry s = .next (State.react { s with media := { s.media with
        entryWait := rest, queue := s.media.queue ++ [{ m with arrival := s.media.stamp, aged := false }]
        stamp := s.media.stamp + 1 } })
      (s.media.entryWait = .op m :: rest → enters)
      ∧ ∀ st w, s.media.entryWait = .placer st w :: .op m :: rest → s.mayBuild = false →
        (s.wantsRun st = false → enters)
        ∧ (let passes (rest' : State → Prop) : Prop := ∃ u : State, exec .mediaQueueEntry s = .next u.react
            ∧ s.PassesOver st u ∧ u.media = { s.media with
                entryWait := rest, queue := s.media.queue ++ [{ m with arrival := s.media.stamp, aged := false }]
                stamp := s.media.stamp + 1 }
            ∧ (u.placer st).run = (s.placer st).run ∧ u.seq = s.seq ∧ u.ports = s.ports ∧ rest' u
           s.wantsRun st = true →
            (s.recordsCover st = true → passes fun u => u.map = s.map ∧ (u.placer st).mapWait = (s.placer st).mapWait)
            ∧ (s.recordsCover st = false → .placer st ∉ s.map.recordWait → passes fun u =>
                u.map = { s.map with recordWait := s.map.recordWait ++ [.placer st] }
                ∧ (u.placer st).mapWait = decide (st ≠ .cleaner))))
    ∧ (∀ (st : Stream) (w : WaitingRun) (rest : List Waiter) (b : Nat) (r : BandRecord), s.queueCount < 64 →
      s.media.entryWait = .placer st w :: rest → (∀ x ∈ rest, waitingRun st x = none) → s.mayBuild = true →
      s.openBand st = some (b, r) → s.wantsFooter st = true ∨ s.wantsPad st = true
        ∨ (s.wantsRun st = true ∧ s.recordsCover st = true ∧ s.map.entryFree (.placer st) = true) →
      let kind : RunKind := if s.wantsFooter st then .footer else if s.wantsPad st then .pad else .data
      ∃ (u : State) (k : OutstandingRun) (op : MediaOp), exec .mediaQueueEntry s = .next u.react
        ∧ (u.placer st).run = some k ∧ k.kind = kind ∧ k.band = b ∧ k.number = s.map.runCounter ∧ k.op = op.id
        ∧ u.media.entryWait = rest ∧ u.media.queue = s.media.queue ++ [op] ∧ op.arrival = s.media.stamp
        ∧ op.kind = (if kind = .footer then .footerWrite else .writeRun) ∧ op.origin = .stream st ∧ op.run = s.map.runCounter
        ∧ op.place = .band b (if kind = .footer then (s.shape b).capacity else r.wp)
        ∧ op.slots = (if kind = .data then (s.plannedRun st).map fun x => some x.number else [])
        ∧ u.map.runCounter = s.map.runCounter + 1 ∧ u.seq = s.seq ∧ u.recovery = s.recovery)
    ∧ (64 ≤ s.queueCount → exec .mediaQueueEntry s = .next s))
  ∧ (∀ s : State,
    (∀ (g : GrantChoice) (cyl head sector track : Nat), s.seq.state = .idle → s.seq.current = none →
      s.seq.ready = true → s.recovery.part ≠ .faulted → s.arbiterChoice = some g →
      s.opAddress g.op = some (cyl, head, sector, track) →
      ∃ t, exec .arbiterGrant s = .next t
        ∧ t = { s with seq := t.seq, media := { s.media with queue := s.media.queue.filter (fun m => decide (m.id ≠ g.op.id))
                                                             turn3 := g.turn3, turn4 := g.turn4, share := t.media.share } }
        ∧ t.seq = { s.seq with state := .positioning, current := t.seq.current, sent := some (.seek cyl head) }
        ∧ ∃ f, t.seq.current = some f ∧ f.op = g.op ∧ f.cylinder = cyl ∧ f.head = head ∧ f.sector = sector
            ∧ f.trackBlocks = track ∧ f.next = 0 ∧ f.delivered = [] ∧ f.seekRetries = 0 ∧ f.retry = none)
    ∧ (s.seq.state ≠ .idle ∨ s.seq.ready = false ∨ s.recovery.part = .faulted → exec .arbiterGrant s = .next s)
    ∧ ∀ g, s.arbiterChoice = some g → g.op ∈ s.media.queue
        ∧ (writeClass g.op = true → s.seq.shock = .clear ∧ s.seq.writeHold = false))
  ∧ ∀ s : State,
    (∀ n, exec (.operationAged n) s = .next { s with media := { s.media with
      queue := s.media.queue.map fun m => { m with aged := m.aged || decide (m.id = n) } } })
    ∧ (∀ op ∈ s.media.queue, s.eligible op = true → op.aged = true →
      ∃ g, s.arbiterChoice = some g ∧ g.op.aged = true ∧ g.op.arrival ≤ op.arrival ∧ g.cls = 1
        ∧ g.turn3 = s.media.turn3 ∧ g.turn4 = s.media.turn4)
    ∧ (let of (n : Nat) (op : MediaOp) : Prop :=
        op ∈ s.media.queue ∧ s.eligible op = true ∧ opClass s.cleaner.mode op = n
      let of3 (k : Nat) (op : MediaOp) : Prop := of 3 op ∧ op.origin = turn3Origin (iterate turn3Next k s.media.turn3)
      let of4 (k : Nat) (op : MediaOp) : Prop := of 4 op ∧ op.origin = .stream (iterate streamNext k s.media.turn4)
      let granted (n : Nat) (among : MediaOp → Prop) (op : MediaOp) (turn3 : Turn3) (turn4 : Stream) : Prop :=
        ∃ g, s.arbiterChoice = some g ∧ g.cls = n ∧ among g.op ∧ g.op.arrival ≤ op.arrival ∧ g.turn3 = turn3
          ∧ g.turn4 = turn4
      (∀ m, ¬of 1 m) →
      (∀ op, of 2 op → granted 2 (of 2) op s.media.turn3 s.media.turn4)
      ∧ ((∀ m, ¬of 2 m) →
        (∀ op, of 5 op → s.media.share = 7 ∨ ((∀ j m, j < 3 → ¬of3 j m) ∧ ∀ j m, j < 9 → ¬of4 j m) →
          granted 5 (of 5) op s.media.turn3 s.media.turn4)
        ∧ (s.media.share ≠ 7 ∨ (∀ m, ¬of 5 m) →
          (∀ k op, k < 3 → of3 k op → (∀ j m, j < k → ¬of3 j m) →
            let next := iterate turn3Next (k + 1) s.media.turn3
            granted 3 (of3 k) op (if next = .cleaner ∧ s.cleaner.mode ≠ .urgent then .portA else next) s.media.turn4)
          ∧ ((∀ j m, j < 3 → ¬of3 j m) → ∀ k op, k < 9 → of4 k op → (∀ j m, j < k → ¬of4 j m) →
            granted 4 (of4 k) op s.media.turn3 (iterate streamNext (k + 1) s.media.turn4)))))
    ∧ ∀ (g : GrantChoice) (a : Nat × Nat × Nat × Nat), s.seq.state = .idle → s.seq.current = none → s.seq.ready = true →
      s.recovery.part ≠ .faulted → s.arbiterChoice = some g → s.opAddress g.op = some a →
      ∃ t, exec .arbiterGrant s = .next t
        ∧ ((∀ m ∈ s.media.queue, m.id ≠ g.op.id → s.eligible m = true → opClass s.cleaner.mode m ≠ 5) → t.media.share = 0)
        ∧ ∀ m ∈ s.media.queue, m.id ≠ g.op.id → s.eligible m = true → opClass s.cleaner.mode m = 5 →
          t.media.share = if g.cls = 3 ∨ g.cls = 4 then min (s.media.share + 1) 7
            else if g.cls = 5 ∨ (g.cls = 1 ∧ g.op.kind = .readRun ∧ g.op.origin = .cleaner ∧ s.cleaner.mode ≠ .urgent) then 0
            else s.media.share

/-! ### Placers (chapter 4) -/

/-- R53, R54, R56, R57, R58, R132: the records, places and numbers that a run or a trim needs. Consecutive HOST blocks whose
LBNs rise by 1 are one group of a run, and every other block is a group of its own. The records cover a run of g groups where
the free record count is 2 g + 1 or more above the reserved count, and a run without a group always. A WRITING slot is
interior where it is neither the first nor the last block of its group. A trim needs 1 record, and 2 for each interior slot
that the staging index names in its range, and a run number and a journal place. While the write-phase flag is set an entry
place can be had where fewer than 64 are held or promised, but not by a request that has found none, which waits till the flag
is cleared. -/
def Obligations.RunsAndTrimsNeedTheirRecords : Prop :=
  let joins (x y : Slot) : Prop := x.kind = some .host ∧ y.kind = some .host ∧ y.lbn = x.lbn + 1
  (countGroups [] = 0 ∧ (∀ x, countGroups [x] = 1)
    ∧ ∀ (run : List Slot) (x y : Slot),
      (joins x y → countGroups (run ++ [x, y]) = countGroups (run ++ [x]))
      ∧ (¬joins x y → countGroups (run ++ [x, y]) = countGroups (run ++ [x]) + 1))
  ∧ ∀ s : State,
    (∀ st, s.recordsCover st = true ↔
      s.plannedRun st = [] ∨ s.map.reserved + 2 * countGroups (s.plannedRun st) + 1 ≤ s.map.freeCount)
    ∧ (∀ n, s.interior n = true ↔ ∃ x st r before a y z after, s.slot n = some x ∧ x.state = .writing ∧ x.origin = .stream st
        ∧ (s.placer st).run = some r ∧ r.slots.filterMap s.slot = before ++ a :: y :: z :: after ∧ y.number = n ∧ joins a y
        ∧ joins y z)
    ∧ (∀ t : TrimRequest, s.trimNeed t = 1 + 2 * (s.staging.index.filter fun e =>
        decide (t.first ≤ e.lbn) && decide (e.lbn ≤ t.last) && s.interior e.slot).length)
    ∧ (s.trimPlaces = true ↔ s.map.runCounter < 281474976710656 ∧ s.recovery.journal.length < 65536)
    ∧ ∀ q, s.map.entryFree q = true ↔
      s.map.writePhase = false ∨ (s.map.pendingApply.length + s.map.promised < 64 ∧ q ∉ s.map.phaseWait)

/-- R53, R55, R57, R58, R68, R72, R86, R129: a placer that tries to build a run it cannot build has taken the run's slots and freed
the superseded ones it passes over, and builds nothing. Where its records are short it joins the record wait list once, and a port
stream's map wait starts, whatever else it lacks; one that lacks an entry place alone waits till the write-phase flag is cleared;
one that lacks room in the media queue alone joins the entry wait list for the run. At the end of an event a placer with a run to
build that waits for an item passes over the superseded slots of the run anew, and one that waits for none frees none of them.
RECORD_WAIT_GRANT builds the run of a waiting placer once its 2 g + 1 records are available, and leaves it in its place before. A
covered placer that may not build leaves the record wait list without its records, and its map wait ends. While a checkpoint is
QUIESCING, or no run number is left, the footer and pad rows change nothing, and neither does RUN_BUILD where no run is due (log
entry 3); where one is due whose records are there, it passes over superseded slots alone. That a covered placer leaves the record
wait list, that the wait for the flag begins only where nothing else is lacking, and that slots are taken and records asked for
also in QUIESCING and without a number, with no list of who waits there, are the model's choices (log entry 22). -/
def Obligations.RunsWaitForRecordsPlacesAndCheckpoints : Prop :=
  ∀ (s : State) (st : Stream),
    let waits (rest : State → Prop) : Prop := ∃ u : State, exec (.runBuild st) s = .next u.react ∧ s.PassesOver st u
      ∧ (u.placer st).run = (s.placer st).run ∧ u.bands = s.bands ∧ u.ports = s.ports ∧ u.seq = s.seq ∧ u.recovery = s.recovery
      ∧ rest u
    (s.wantsRun st = true →
      (s.recordsCover st = false →
        (.placer st ∉ s.map.recordWait → waits fun u => u.map = { s.map with recordWait := s.map.recordWait ++ [.placer st] }
          ∧ (u.placer st).mapWait = decide (st ≠ .cleaner) ∧ u.media = s.media)
        ∧ (.placer st ∈ s.map.recordWait → waits fun u => u.map = s.map ∧ (u.placer st).mapWait = (s.placer st).mapWait
          ∧ u.media = s.media))
      ∧ (s.mayBuild = true → s.recordsCover st = true → s.map.entryFree (.placer st) = false → .placer st ∉ s.map.phaseWait →
          waits fun u => u.map = { s.map with phaseWait := s.map.phaseWait ++ [.placer st] } ∧ u.media = s.media)
      ∧ (s.mayBuild = true → s.recordsCover st = true → s.map.entryFree (.placer st) = true → s.queueRoom = false →
          (∀ w ∈ s.media.entryWait, waitingRun st w = none) → waits fun u => u.map = s.map
            ∧ u.media = { s.media with entryWait := s.media.entryWait ++ [.placer st
                { kind := .data, slots := (s.plannedRun st).map fun x => x.number, count := (s.plannedRun st).length }] })
      ∧ (let listed : Prop := .placer st ∈ s.map.recordWait ∨ .placer st ∈ s.map.phaseWait
            ∨ ∃ w ∈ s.media.entryWait, (waitingRun st w).isSome = true
         (listed ∨ s.mayBuild = false → s.PassesOver st (s.placerWaits st))
          ∧ (¬listed → s.mayBuild = true → (s.placerWaits st).staging = s.staging)))
    ∧ (s.map.recordWait = [.placer st] → s.wantsRun st = true →
        (s.mayBuild = true → s.map.entryFree (.placer st) = true → s.queueRoom = true → s.recordsCover st = true →
          exec .recordWaitGrant s = exec (.runBuild st) s
          ∧ ∃ u : State, exec .recordWaitGrant s = .next u.react ∧ (u.placer st).run.isSome)
        ∧ (s.recordsCover st = false → exec .recordWaitGrant s = .next s.react)
        ∧ (s.mayBuild = false → s.recordsCover st = true → ∃ u : State, exec .recordWaitGrant s = .next u.react
            ∧ u.map = { s.map with recordWait := [] } ∧ (u.placer st).mapWait = false ∧ (u.placer st).run = (s.placer st).run
            ∧ u.media = s.media ∧ u.ports = s.ports ∧ s.PassesOver st u))
    ∧ (s.recovery.checkpoint.state = .quiescing ∨ 281474976710656 ≤ s.map.runCounter →
        (s.wantsRun st = false → exec (.runBuild st) s = .next s)
        ∧ (s.wantsRun st = true → s.recordsCover st = true → waits fun u => u.map = s.map ∧ u.media = s.media)
        ∧ exec (.footerWriteBuild st) s = .next s ∧ exec (.padRunBuild st) s = .next s)

/-- R27, R70, R72, R76, R79, R80: what a placer with an open band would build. The room at wp is what is left of its track and
of C(z). The data run is the first slots of its queue that are not superseded, as many as the room holds; in PLACING only
those up to the last slot of an open pad request count. A data run is due with no run outstanding, no suspect window, wp below
C(z), a pad state other than PADDING and a slot to take, where its length is MINRUN or the room, the idle-due mark is set, or
the pad state is PLACING. The footer is due where the done mark is C(z) and wp is C(z), or stands at the band's end after a
footer write that did not count as written. A pad run, of the room or what is left to the pad target, is due in PADDING where
that is above 0. Without an open band nothing is due. -/
def Obligations.WhatAPlacerWouldBuild : Prop :=
  ∀ (s : State) (st : Stream),
    (s.openBand st = none → s.wantsRun st = false ∧ s.wantsFooter st = false ∧ s.wantsPad st = false)
    ∧ ∀ (b : Nat) (r : BandRecord), s.openBand st = some (b, r) →
      let x := s.placer st
      let sh := s.shape b
      let room := min (sh.track - r.wp % sh.track) (sh.capacity - r.wp)
      let free : Prop := x.run = none ∧ r.suspect = none
      let plan := s.plannedRun st
      let takes (ns : List Nat) : Prop :=
        let waiting := (ns.filterMap s.slot).filter fun y => !y.superseded
        plan.length = min waiting.length room ∧ ∃ more, waiting = plan ++ more
      let asked (n : Nat) : Prop := ∃ q ∈ x.requests, n ∈ q.slots
      (x.pad ≠ .placing → takes x.queue)
      ∧ (x.pad = .placing → (∀ before n after, x.queue = before ++ n :: after → asked n → (∀ m ∈ after, ¬asked m) →
            takes (before ++ [n]))
          ∧ ((∀ n ∈ x.queue, ¬asked n) → plan = []))
      ∧ (s.wantsRun st = true ↔ free ∧ r.wp < sh.capacity ∧ (∀ target, x.pad ≠ .padding target) ∧ plan ≠ []
          ∧ (plan.length = room ∨ (∀ g, s.geo.inForce = some g → g.minRun ≤ plan.length) ∨ x.idleDue = true
              ∨ x.pad = .placing))
      ∧ (s.wantsFooter st = true ↔ free ∧ r.done = sh.capacity ∧ (r.wp = sh.capacity ∨ r.wp = sh.size))
      ∧ (s.wantsPad st = true ↔ free ∧ 0 < s.padRunLength st)
      ∧ (∀ target, x.pad = .padding target → s.padRunLength st = min (target - r.wp) room)
      ∧ ((∀ target, x.pad ≠ .padding target) → s.padRunLength st = 0)

/-- R24, R50, R53, R57, R64, R68, R72, R75, R76, R79: RUN_BUILD, with a trigger met and records, an entry place and room in
the queue at hand, takes the planned slots from the queue at the band's write pointer: the write pointer rises by their
number, the run takes the next run number and 2 records for each of its groups, each slot is WRITING with its band, offset and
track index, and the WRITE RUN is in the queue. The map's contents stay. FOOTER_WRITE_BUILD raises the write pointer from C(z)
to T×S(z) and queues a FOOTER WRITE of the footer offsets with C(z) summary entries and one NONE for each footer offset;
PAD_RUN_BUILD raises it by the pad run's length and queues a WRITE RUN of PAD entries without slots, and takes the placer from
PADDING to NONE where it brings wp to the pad target. Each of these takes the next run number and no record. A data run and a
pad run add the entries of their offsets to the band summary: HOST with the LBN, RELOCATED with the source or, of a RE-PLACED
block, the damaged place, and PAD. The superseded slots that stand in the queue before the last one taken leave it, FREE where
no READ has them pinned. -/
def Obligations.RunFooterAndPadBuilds : Prop :=
  (∀ (s : State) (st : Stream) (b : Nat) (r : BandRecord), s.mayBuild = true → s.wantsRun st = true →
    s.recordsCover st = true → s.map.entryFree (.placer st) = true → s.queueRoom = true → s.openBand st = some (b, r) →
    let plan := s.plannedRun st
    let n := s.map.runCounter
    let entry (x : Slot) : Entry := match x.kind with
      | some .relocated => { kind := .relocated, lbn := x.lbn, run := n, source := x.source }
      | some .replaced => { kind := .relocated, lbn := x.lbn, run := n, source := x.damaged }
      | _ => { kind := .host, lbn := x.lbn, run := n, source := none }
    ∃ u : State, exec (.runBuild st) s = .next u.react
      ∧ u.band b = some { r with wp := r.wp + plan.length }
      ∧ u.map = { s.map with runCounter := n + 1, reserved := s.map.reserved + 2 * countGroups plan
                             promised := u.map.promised, recordWait := u.map.recordWait, phaseWait := u.map.phaseWait }
      ∧ (u.placer st).run = some { op := s.media.stamp, kind := .data, band := b, first := r.wp, count := plan.length
                                   slots := plan.map fun x => x.number, number := n, reserved := 2 * countGroups plan
                                   claimed := s.map.writePhase }
      ∧ ((∀ x ∈ s.staging.slots, x.superseded = false) →
          (u.placer st).queue = (s.placer st).queue.filter fun k => decide (k ∉ plan.map fun x => x.number))
      ∧ ((s.placer st).queue.Nodup → ∀ (i : Nat) (x : Slot), plan[i]? = some x → u.slot x.number = some { x with
          state := .writing, place := some { band := b, offset := r.wp + i, track := (r.wp + i) / (s.shape b).track } })
      ∧ (u.placer st).idleDue = false
      ∧ (∀ e, e ∈ (u.placer st).summary ↔
          e ∈ (s.placer st).summary ∨ ∃ i x, plan[i]? = some x ∧ e = (r.wp + i, entry x))
      ∧ (∀ before last after, (s.placer st).queue = before ++ last :: after → last ∉ before →
          (plan.getLast?.map fun x => x.number) = some last → ∀ k ∈ before, ∀ x, s.slot k = some x → x.superseded = true →
          x.origin = .stream st → k ∉ (u.placer st).queue ∧ (x.pins = 0 → ∀ z ∈ u.staging.slots, z.number ≠ k)
            ∧ (0 < x.pins → u.slot k = some { x with releaseDue := true }))
      ∧ (∃ op, u.media.queue = s.media.queue ++ [op] ∧ op.kind = .writeRun ∧ op.pad = false ∧ op.place = .band b r.wp
          ∧ op.count = plan.length ∧ op.run = n ∧ op.origin = .stream st ∧ op.entries = plan.map entry
          ∧ op.slots = plan.map fun x => some x.number)
      ∧ u.geo = s.geo ∧ u.seq = s.seq ∧ u.recovery = s.recovery ∧ u.notices = s.notices)
  ∧ ∀ (s : State) (st : Stream) (b : Nat) (r : BandRecord), s.mayBuild = true → s.queueRoom = true →
    s.openBand st = some (b, r) →
    let sh := s.shape b
    let n := s.map.runCounter
    (s.wantsFooter st = true → ∃ u : State, exec (.footerWriteBuild st) s = .next u.react
      ∧ u.band b = some { r with wp := sh.size } ∧ u.map = { s.map with runCounter := n + 1 }
      ∧ (∃ k, (u.placer st).run = some k ∧ k.kind = .footer ∧ k.band = b ∧ k.first = sh.capacity ∧ k.number = n
          ∧ k.reserved = 0 ∧ k.op = s.media.stamp)
      ∧ ∃ op, u.media.queue = s.media.queue ++ [op] ∧ op.kind = .footerWrite ∧ op.place = .band b sh.capacity
          ∧ op.count = sh.size - sh.capacity ∧ op.run = n ∧ op.origin = .stream st
          ∧ op.entries = (countFrom 0 sh.capacity).map (summaryEntry (s.placer st).summary)
              ++ List.replicate (sh.size - sh.capacity) { kind := .none, lbn := 0, run := 0, source := none })
    ∧ (s.wantsPad st = true → ∃ u : State, exec (.padRunBuild st) s = .next u.react
      ∧ u.band b = some { r with wp := r.wp + s.padRunLength st } ∧ u.map = { s.map with runCounter := n + 1 }
      ∧ (∃ k, (u.placer st).run = some k ∧ k.kind = .pad ∧ k.band = b ∧ k.first = r.wp ∧ k.count = s.padRunLength st
          ∧ k.slots = [] ∧ k.reserved = 0)
      ∧ (u.placer st).pad = (if (s.placer st).pad = .padding (r.wp + s.padRunLength st) then .none else (s.placer st).pad)
      ∧ (∀ e, e ∈ (u.placer st).summary ↔ e ∈ (s.placer st).summary
          ∨ ∃ i, i < s.padRunLength st ∧ e = (r.wp + i, { kind := .pad, lbn := 0, run := n, source := none }))
      ∧ ∃ op, u.media.queue = s.media.queue ++ [op] ∧ op.kind = .writeRun ∧ op.pad = true ∧ op.place = .band b r.wp
          ∧ op.count = s.padRunLength st ∧ op.slots = [] ∧ op.run = n
          ∧ op.entries = List.replicate (s.padRunLength st) { kind := .pad, lbn := 0, run := n, source := none })

/-- R20, R21, R22, R23, R55, R71, R74, R161: BAND_GRANT gives the cleaner stream a band at an EMPTY count of 1 or more, and
otherwise the oldest waiting port stream one at 3 or more; the stream leaves the open wait list, its band becomes OPEN with
the values of a grant, and the EMPTY count falls by 1. Where neither condition holds no band is granted (log entry 3). The
idle timer's expiry sets the idle-due mark. The placement wait's expiry of a port stream completes its heading WRITE NO SPACE,
and the map wait's expiry the WRITE of the run it could not build MAP EXHAUSTED, each with the number of its blocks built into
runs. Each of its GATHERED blocks is dropped from its queue and the staging index and its slot FREE, release due where a READ
has it pinned; its FILLING slots go likewise, its slot requests and its pad request are withdrawn, and every other slot stays.
With no heading WRITE nothing is completed. That a block of a run that did not count as written counts among those built, and
that a RE-PLACED block makes the WRITE that supplied it none of those ended, are the model's choices (log entry 31). A map
wait that expires when the records cover the run ends no WRITE: the placer leaves the record wait list (log entry 22). -/
def Obligations.BandGrantsAndPlacerTimers : Prop :=
  (∀ s : State, s.EmptyCounted →
    (∀ st, (st = .cleaner ∧ .cleaner ∈ s.bands.openWait ∧ 1 ≤ s.bands.emptyCount)
        ∨ (.cleaner ∉ s.bands.openWait ∧ s.bands.openWait.head? = some st ∧ 3 ≤ s.bands.emptyCount) →
      ∃ (u : State) (b : Nat) (old : BandRecord), exec .bandGrant s = .next u.react ∧ s.band b = some old ∧ old.state = .empty
        ∧ u.band b = some { state := .opened, wp := 0, done := 0, live := 0, owner := some st, closeNumber := none
                            footer := false, faults := 0, refs := 0, suspect := none }
        ∧ (∀ c old', s.band c = some old' → old'.state = .empty →
            if st ≠ .cleaner ∧ s.preference st = .outer then b ≤ c else c ≤ b)
        ∧ (∀ c, c ≠ b → u.band c = s.band c)
        ∧ u.bands.emptyCount = s.bands.emptyCount - 1 ∧ st ∉ u.bands.openWait
        ∧ (u.placer st).band = some b ∧ (u.placer st).summary = [] ∧ u.map = s.map ∧ u.staging = s.staging
        ∧ u.ports = s.ports ∧ u.seq = s.seq ∧ u.recovery = s.recovery)
    ∧ (s.bands.emptyCount = 0 ∨ (.cleaner ∉ s.bands.openWait ∧ s.bands.emptyCount < 3) ∨ s.bands.openWait = [] →
        exec .bandGrant s = .next s.react))
  ∧ ∀ (s : State) (st : Stream),
    ((s.placer st).idleTimer = true → exec (.gatherIdleExpiry st) s = .next { s with
        placers := s.placers.set st { s.placer st with idleTimer := false, idleDue := true } })
    ∧ ((s.placer st).bandWait = true → st ≠ .cleaner → s.headingWrites st = [] →
        exec (.placementWaitExpiry st) s = .next s.react)
    ∧ ((s.placer st).mapWait = true → s.recordsCover st = true → ∃ u : State, exec (.mapWaitExpiry st) s = .next u.react
        ∧ (u.placer st).mapWait = false ∧ .placer st ∉ u.map.recordWait ∧ u.ports = s.ports ∧ u.staging = s.staging
        ∧ u.bands = s.bands ∧ u.media = s.media)
    ∧ ∀ (p : Port) (c : Command), (s.port p).list = [c] → c.status = none →
        let drops (u : State) : Prop := s.SlotsInOrder →
          (∀ x ∈ s.staging.slots, x.command = some (p, c.id) → (x.kind = some .host ∧ x.state = .gathered) ∨ x.state = .filling →
            (∀ y, u.indexed y ≠ some x.number) ∧ (∀ o, x.origin = .stream o → x.number ∉ (u.placer o).queue)
            ∧ (x.pins = 0 → ∀ z ∈ u.staging.slots, z.number ≠ x.number)
            ∧ (0 < x.pins → u.slot x.number = some { x with releaseDue := true }))
          ∧ (∀ x ∈ s.staging.slots, x.command ≠ some (p, c.id) ∨ (x.state ≠ .gathered ∧ x.state ≠ .filling) → x ∈ u.staging.slots)
          ∧ (∀ k o l, .fill p c.id o l ∉ u.staging.requests.get k)
          ∧ ∀ o, ∀ q ∈ (u.placer o).requests, q.owner ≠ .command p c.id
        ((s.placer st).bandWait = true → st ≠ .cleaner → s.headingWrites st = [(p, c.id)] →
          ∃ u : State, exec (.placementWaitExpiry st) s = .next u.react
            ∧ (u.port p).list = [{ c with status := some { status := .noSpace, blocks := builtCount c, result0 := 0, result1 := 0 }
                                          held := false, work := .none }]
            ∧ u.port (otherPort p) = s.port (otherPort p) ∧ u.map = s.map ∧ u.bands = s.bands ∧ u.seq = s.seq ∧ drops u)
        ∧ ((s.placer st).mapWait = true → s.recordsCover st = false → writesOf (s.plannedRun st) = [(p, c.id)] →
          ∃ u : State, exec (.mapWaitExpiry st) s = .next (u.react.endMapWait st)
            ∧ (u.port p).list = [{ c with status := some { status := .mapExhausted, blocks := builtCount c, result0 := 0
                                                           result1 := 0 }
                                          held := false, work := .none }]
            ∧ u.port (otherPort p) = s.port (otherPort p) ∧ u.map = s.map ∧ u.bands = s.bands ∧ u.seq = s.seq ∧ drops u)

/-- R54, R61, R62, R63, R65, R66, R67, R86, R114, R158, R160: SLOT_GRANT gives the oldest waiting request of an account below
its limit a FREE slot, in the state FILLING with the request's LBN, stream and WRITE, and raises the charge; younger requests
follow while the charge stays below the limit, and an account at its limit grants nothing. A request of a port's READ RUN has
a READING slot on the general account, one of the Cleaner's a CLEANING slot on the cleaner account, with the victim and the
offset as its source, which raises the blocks in relocation outside FAULTED (log entry 12). The slots granted join their
forming run in order; with its last one the run leaves the forming ones and enters the media queue as a READ RUN of its blocks
and slots, or the entry wait list where the queue has no room. A pull reads the address that the WRITE's pieces give its
block. Once complete, its block stands in its FILLING slot, which joins the port's pulled slots at their end. At the
acceptance of a block the copy of its LBN that the index named, if any, is superseded, the index names the new slot alone for
the LBN, the new slot is GATHERED at the tail of its stream's queue, and the idle timer runs. Where the older copy stands
inside the group of a run and fewer than 2 records are available, the acceptance waits on the record wait list and nothing is
accepted; where 2 are available the run's reservation and the reserved count rise by 2 and it takes place. That the slot
granted is the lowest FREE one (log entry 7), and that a WRITE asks for its next block's slot when a pull completes, one at a
time (log entry 8), are the model's choices. -/
def Obligations.SlotsAreGrantedFilledAndAccepted : Prop :=
  ((∀ (s : State) (k : Account),
    (accountLimit s.staging.size k ≤ s.staging.charges.get k → s.staging.requests.get k ≠ [] →
      exec (.slotGrant k) s = .next s.react)
    ∧ ∀ p cmd st lbn rest, s.staging.charges.get k < accountLimit s.staging.size k →
        s.staging.requests.get k = .fill p cmd st lbn :: rest → s.staging.streamAccount st = k →
        ∃ (u : State) (x : Slot), exec (.slotGrant k) s = .next u.react
          ∧ x = { number := lowestFree s.staging.slots 0, state := .filling, lbn := lbn, origin := .stream st
                  kind := some .host, command := some (p, cmd), superseded := false, pins := 0, releaseDue := false
                  place := none, source := none, damaged := none, data := zeroBlock }
          ∧ x ∈ u.staging.slots
          ∧ (rest = [] ∨ accountLimit s.staging.size k ≤ s.staging.charges.get k + 1 →
              u.staging.slots.length = s.staging.slots.length + 1 ∧ u.staging.charges.get k = s.staging.charges.get k + 1
              ∧ u.staging.requests.get k = rest)
          ∧ u.staging.index = s.staging.index ∧ u.map = s.map ∧ u.bands = s.bands ∧ u.ports = s.ports ∧ u.seq = s.seq)
  ∧ (∀ (s : State) (k : Account) (granted rest : List SlotRequest),
    s.staging.requests.get k = granted ++ rest →
    (∀ r ∈ granted, match r with
      | .fill _ _ st _ => s.staging.streamAccount st = k
      | .reading _ _ _ => k = .general
      | .cleaning _ _ _ => k = .cleaner) →
    s.staging.charges.get k + granted.length ≤ accountLimit s.staging.size k →
    rest = [] ∨ s.staging.charges.get k + granted.length = accountLimit s.staging.size k →
    ∃ u : State, exec (.slotGrant k) s = .next u.react
      ∧ u.staging.requests.get k = rest ∧ u.staging.charges.get k = s.staging.charges.get k + granted.length
      ∧ u.staging.slots.length = s.staging.slots.length + granted.length ∧ (∀ x ∈ s.staging.slots, x ∈ u.staging.slots)
      ∧ (∀ r ∈ granted, ∃ x ∈ u.staging.slots, match r with
          | .fill p cmd st lbn => x.state = .filling ∧ x.lbn = lbn ∧ x.origin = .stream st ∧ x.kind = some .host
              ∧ x.command = some (p, cmd)
          | .reading _ p lbn => x.state = .reading ∧ x.lbn = lbn ∧ x.origin = .port p ∧ x.kind = none ∧ x.source = none
          | .cleaning _ lbn o => x.state = .cleaning ∧ x.lbn = lbn ∧ x.origin = .stream .cleaner ∧ x.kind = none
              ∧ x.source.map (fun a => a.2) = some o)
      ∧ u.staging.index = s.staging.index ∧ u.map = s.map ∧ u.bands = s.bands ∧ u.ports = s.ports ∧ u.seq = s.seq)
  ∧ (∀ (s : State) (k : Account) (origin : SlotOrigin) (f : FormingRead) (before after : List FormingRead)
      (granted : List (Nat × Nat)) (rest : List SlotRequest),
    s.media.forming = before ++ f :: after → (∀ d ∈ before ++ after, d.id ≠ f.id) → granted ≠ [] →
    f.slots.length + granted.length ≤ f.lbns.length →
    s.staging.charges.get k + granted.length ≤ accountLimit s.staging.size k →
    rest = [] ∨ s.staging.charges.get k + granted.length = accountLimit s.staging.size k →
    (k = .general ∧ ∃ p, origin = .port p ∧ s.staging.requests.get k = (granted.map fun e => .reading f.id p e.1) ++ rest)
      ∨ (k = .cleaner ∧ origin = .stream .cleaner
          ∧ s.staging.requests.get k = (granted.map fun e => .cleaning f.id e.1 e.2) ++ rest) →
    ∃ (u : State) (ns : List Nat), exec (.slotGrant k) s = .next u.react
      ∧ ns.length = granted.length ∧ ns.head? = some (lowestFree s.staging.slots 0)
      ∧ (∀ (i n : Nat) (e : Nat × Nat), granted[i]? = some e → ns[i]? = some n → ∃ x ∈ u.staging.slots,
          x = { number := n, state := if k = .cleaner then .cleaning else .reading, lbn := e.1, origin := origin, kind := none
                command := none, superseded := false, pins := 0, releaseDue := false, place := none
                source := if k = .cleaner then some (f.band, e.2) else none, damaged := none, data := zeroBlock })
      ∧ (let op : MediaOp :=
          { id := s.media.stamp, kind := .readRun, pad := false, place := .band f.band f.first, count := f.lbns.length, run := 0
            origin := f.origin, slots := (f.slots ++ ns).map some, entries := [], system := [], arrival := 0, aged := false
            command := f.command, blocks := f.blocks, scan := false, counted := false, task := .none }
        (f.slots.length + granted.length < f.lbns.length →
          u.media = { s.media with forming := before ++ { f with slots := f.slots ++ ns } :: after })
        ∧ (f.slots.length + granted.length = f.lbns.length →
          (s.queueRoom = true → u.media = { s.media with
            forming := before ++ after, queue := s.media.queue ++ [{ op with arrival := s.media.stamp }]
            stamp := s.media.stamp + 1 })
          ∧ (s.queueRoom = false → u.media = { s.media with
            forming := before ++ after, entryWait := s.media.entryWait ++ [.op op], stamp := s.media.stamp + 1 })))
      ∧ u.cleaner = (if k = .cleaner ∧ s.recovery.part ≠ .faulted then
          { s.cleaner with inRelocation := s.cleaner.inRelocation + granted.length } else s.cleaner)
      ∧ u.placers = s.placers ∧ u.bands = s.bands ∧ u.ports = s.ports ∧ u.seq = s.seq ∧ u.recovery = s.recovery)
  ∧ ∀ (s : State) (p : Port) (cmd next : Nat) (q : Pull) (block : Block) (x : Slot) (c : Command) (a : Nat) (b : List Nat),
    s.pullOf p cmd = some q → s.slot q.slot = some x → s.command p cmd = some c → c.work = .write next a b →
    (s.SlotsInOrder → x.state = .filling ∧ x.command = some (p, cmd) ∧ q.index = x.lbn - c.record.lbn.toNat
      ∧ q.address = blockAddress c.record.pieces q.index)
    ∧ ∃ u : State, exec (.pullComplete p cmd block) s = .next u.react
      ∧ (u.port p).pulled = (s.port p).pulled ++ [q.slot] ∧ u.staging.index = s.staging.index ∧ u.map = s.map
      ∧ u.bands = s.bands ∧ u.seq = s.seq ∧ u.placers = s.placers
      ∧ (c.record.count.toNat ≤ next → u.slot q.slot = some { x with data := block }
          ∧ (∀ m, m ≠ q.slot → u.slot m = s.slot m) ∧ (u.port p).list = (s.port p).list
          ∧ u.staging.charges = s.staging.charges)
      ∧ (next < c.record.count.toNat → ∃ d ∈ (u.port p).list, d.id = cmd ∧ d.work = .write (next + 1) a b))
  ∧ ∀ (s : State) (p : Port) (n : Nat) (rest : List Nat) (x : Slot), (s.port p).pulled = n :: rest → s.slot n = some x →
    (∀ st, x.origin = .stream st → s.interiorFor x = none → s.indexed x.lbn ≠ some n →
      ∃ u : State, exec (.acceptance p) s = .next u.react
        ∧ u.indexed x.lbn = some n
        ∧ (∀ z, z ≠ x.lbn → s.indexed z ≠ s.indexed x.lbn ∨ s.indexed z = none → u.indexed z = s.indexed z)
        ∧ u.slot n = some { x with state := .gathered, superseded := false }
        ∧ (∀ old y, s.indexed x.lbn = some old → s.slot old = some y → u.slot old = some { y with superseded := true })
        ∧ n ∉ (u.port p).pulled ∧ (u.placer st).queue = (s.placer st).queue ++ [n]
        ∧ (u.placer st).idleTimer = true ∧ u.map = s.map ∧ u.bands = s.bands ∧ u.seq = s.seq)
    ∧ (∀ old, s.interiorFor x = some old → s.map.available < 2 → .accept p old ∉ s.map.recordWait →
      exec (.acceptance p) s
        = .next (State.react { s with map := { s.map with recordWait := s.map.recordWait ++ [.accept p old] } }))
    ∧ (∀ st old y so r, x.origin = .stream st → s.interiorFor x = some old → old ≠ n → s.slot old = some y →
      y.origin = .stream so → (s.placer so).run = some r → 2 ≤ s.map.available →
      ∃ u : State, exec (.acceptance p) s = .next u.react
        ∧ u.map.reserved = s.map.reserved + 2 ∧ (u.placer so).run = some { r with reserved := r.reserved + 2 }
        ∧ u.slot old = some { y with superseded := true } ∧ u.indexed x.lbn = some n
        ∧ u.slot n = some { x with state := .gathered, superseded := false } ∧ n ∉ (u.port p).pulled
        ∧ .accept p old ∉ u.map.recordWait ∧ (∀ q, q ≠ .accept p old → (q ∈ u.map.recordWait ↔ q ∈ s.map.recordWait))
        ∧ u.map.table = s.map.table ∧ u.map.freeCount = s.map.freeCount ∧ u.bands = s.bands ∧ u.seq = s.seq)

/-- R56, R57, R58, R132, R133, R162: TRIM_APPLY of a trim whose records, number, journal place and entry place can be had
takes the next run number, leaves its range mapped nowhere and every other LBN where it was, leaves no staged copy of its
range, and appends a TRIM record with the range and number; without DURABLE the TRIM finishes DONE with its count, and with it
the TRIM asks for a journal write, which starts with its record or, under one in progress, is a further one, and stays
RUNNING. A trim without records joins the record wait list, whatever else it lacks; one that lacks an entry place alone waits
till the write-phase flag is cleared; one without a number or journal place waits as it is (that the wait for the flag begins
only where nothing else is lacking is log entry 22). The row for a command that has no such trim waiting changes nothing but
what every event ends with, which is the model's choice (log entry 3). At the end of its map wait it leaves unapplied, and the
TRIM finishes MAP EXHAUSTED with blocks done 0; where its records can be had by then, it only leaves the list (log entry 22). -/
def Obligations.TrimsAreAppliedOrWait : Prop :=
  (∀ (s : State) (p : Port) (cmd : Nat) (t : TrimRequest), s.findTrim p cmd = some t → s.trimPlaces = true →
    s.map.entryFree (.trim p cmd) = true → s.trimNeed t ≤ s.map.available → t.port = p → t.cmd = cmd → t.first ≤ t.last →
    s.PhaseKept → s.recovery.journal.length + 1 < Config.journalPlaces →
    ∃ u : State, exec (.trimApply p cmd) s = .next u.react
      ∧ u.map.runCounter = s.map.runCounter + 1
      ∧ (∀ y b o, t.first ≤ y → y ≤ t.last → mapsTo u.map.current y b o = false ∧ u.indexed y = none)
      ∧ (∀ y b o, y < t.first ∨ t.last < y → mapsTo u.map.current y b o = mapsTo s.map.current y b o)
      ∧ u.recovery.journal = s.recovery.journal ++ [{ record := { sequence := s.recovery.nextSequence
                                                                  kind := .trim t.first (t.last + 1 - t.first) s.map.runCounter }
                                                      written := false }]
      ∧ u.recovery.nextSequence = s.recovery.nextSequence + 1
      ∧ (∀ c, s.command p cmd = some c → durableBit c.record.flags = false → ∃ d ∈ (u.port p).list, d.id = cmd
          ∧ d.status = some { status := .done, blocks := c.record.count.toNat, result0 := 0, result1 := 0 })
      ∧ (∀ c, s.command p cmd = some c → durableBit c.record.flags = true → c.status = none →
          (∃ d ∈ (u.port p).list, d.id = cmd ∧ d.status = none ∧ d.work = .trim true)
          ∧ let w := s.recovery.journalWrite
            (w.active = true → u.recovery.journalWrite = { w with
              further := true, furtherRequesters := w.furtherRequesters ++ [.command p cmd] })
            ∧ (w.active = false → u.recovery.journalWrite.active = true ∧ u.recovery.journalWrite.requesters = [.command p cmd]
                ∧ s.recovery.nextSequence ∈ u.recovery.journalWrite.taken))
      ∧ u.geo = s.geo ∧ u.seq = s.seq)
  ∧ ∀ (s : State) (p : Port) (cmd : Nat),
    (s.findTrim p cmd = none → exec (.trimApply p cmd) s = .next s.react)
    ∧ (∀ t, s.findTrim p cmd = some t →
      (s.map.available < s.trimNeed t → exec (.trimApply p cmd) s = .next (State.react { s with map := { s.map with
        recordWait := s.map.recordWait ++ if .trim p cmd ∈ s.map.recordWait then [] else [.trim p cmd] } }))
      ∧ (s.trimNeed t ≤ s.map.available → s.trimPlaces = true → s.map.entryFree (.trim p cmd) = false →
        exec (.trimApply p cmd) s = .next (State.react { s with map := { s.map with
          phaseWait := s.map.phaseWait ++ if .trim p cmd ∈ s.map.phaseWait then [] else [.trim p cmd] } }))
      ∧ (s.trimNeed t ≤ s.map.available → s.trimPlaces = false → exec (.trimApply p cmd) s = .next s.react))
    ∧ (.trim p cmd ∈ s.map.recordWait →
      (s.trimCovered p cmd = false → ∃ t : State, exec (.trimMapWaitExpiry p cmd) s = .next t
        ∧ t = { s with map := t.map, ports := t.ports } ∧ t.map.table = s.map.table ∧ t.map.pendingApply = s.map.pendingApply
        ∧ .trim p cmd ∉ t.map.recordWait ∧ (∀ x ∈ t.map.trims, ¬(x.port = p ∧ x.cmd = cmd))
        ∧ t.port (otherPort p) = s.port (otherPort p)
        ∧ (t.port p).list = (s.port p).list.map fun c => if c.id = cmd ∧ c.status = none then
            { c with status := some { status := .mapExhausted, blocks := 0, result0 := 0, result1 := 0 }, held := false
                     work := .none } else c)
      ∧ (s.trimCovered p cmd = true → exec (.trimMapWaitExpiry p cmd) s = .next { s with map := { s.map with
          recordWait := s.map.recordWait.filter fun r => decide (r ≠ .trim p cmd) } }))

/-! ### The Cleaner (chapter 6) -/

/-- R110: use, age and the two scores of a FULL band with 1 to C−1 live blocks, and their ranges; the age is right across the
close counter's wrap. -/
def Obligations.CleanerScores : Prop :=
  ∀ (capacity : Nat) (counter : Word32) (r : BandRecord) (n : Word32), 1 ≤ r.live → r.live < capacity →
    r.closeNumber = some n →
    useOf capacity r = r.live * 1000 / capacity ∧ useOf capacity r ≤ 999
    ∧ ageOf counter r = min ((counter.toNat + 4294967296 - n.toNat) % 4294967296) 65535
    ∧ scoreOf .background capacity counter r
        = (1000 - useOf capacity r) * ageOf counter r / (1000 + useOf capacity r)
    ∧ scoreOf .background capacity counter r ≤ 65535
    ∧ scoreOf .urgent capacity counter r = 1000 - useOf capacity r
    ∧ 1 ≤ scoreOf .urgent capacity counter r ∧ scoreOf .urgent capacity counter r ≤ 1000
    ∧ (counter = 5 → n = 4294967290 → ageOf counter r = 11)
    ∧ (counter = n → scoreOf .background capacity counter r = 0)

/-- R20, R21, R105, R106, R109: the Cleaner's mode is URGENT where the EMPTY count is CRIT or less or a port stream waits for
a band, BACKGROUND where it is not and the EMPTY count is LOW or less or a band of the retired list is marked AWAITING, and
IDLE otherwise. The cleaner room is what the cleaner stream's open band has left of its data capacity, and the smallest data
capacity for each of at most two EMPTY bands, less the cleaner stream's waiting count and twice the largest track, and 0 where
that is negative. That port streams which the grants of R21 are about to serve do not count as waiting, and that a band whose
footer is built has 0 left, is the model's reading (log entry 11). -/
def Obligations.TheCleanerHasItsModeAndRoom : Prop :=
  ∀ (s : State) (g : Geometry), s.geo.inForce = some g →
    let empty := s.bands.emptyCount
    let ports := (s.bands.openWait.filter fun x => decide (x ≠ .cleaner)).length
    let waits : Prop := 0 < ports ∧ empty < ports + 2 + (if .cleaner ∈ s.bands.openWait then 1 else 0)
    let urgent : Prop := empty ≤ g.crit ∨ waits
    let marked : Prop := ∃ b, (b, RetiredMark.awaiting) ∈ s.cleaner.retired
    (s.modeNow = .urgent ↔ urgent)
    ∧ (s.modeNow = .background ↔ ¬urgent ∧ (empty ≤ g.low ∨ marked))
    ∧ (s.modeNow = .idle ↔ ¬urgent ∧ g.low < empty ∧ ¬marked)
    ∧ ∀ least most : Nat,
      let capacity (z : Zone) : Nat := g.tracks * z.blocks - (g.tracks * z.blocks + 255) / 256
      (∃ z ∈ g.zones, capacity z = least) → (∀ z ∈ g.zones, least ≤ capacity z) →
      (∃ z ∈ g.zones, z.blocks = most) → (∀ z ∈ g.zones, z.blocks ≤ most) →
      let waiting := (((s.placer .cleaner).queue.filterMap s.slot).filter fun x => !x.superseded).length
      let room (left : Nat) : Nat := left + min empty 2 * least - waiting - 2 * most
      (s.openBand .cleaner = none → s.cleanerRoom = room 0)
      ∧ ∀ b r, s.openBand .cleaner = some (b, r) → s.cleanerRoom = room ((s.shape b).capacity - r.wp)

/-- R34, R109, R111: a band is eligible where it is FULL, holds a live and a dead block, and its live blocks fit the cleaner
room. A whole scan keeps an eligible band wherever there is one, and none otherwise; no other eligible band exceeds the one
kept in score, and it is the lowest-numbered of those with its score. At the end of a scan the FULL band kept becomes CLEANING
with its other fields as they were, and is the victim of a Cleaner in RELOCATING whose scan starts at offset 0; with no band
kept, nothing but the Cleaner's own scan marks changes. A band kept that is no longer FULL is refused, and the choice is made
again: the lowest-numbered eligible band marked AWAITING is the victim at once, of kind RETIRED and in the state it has; with
none the scan starts again from band 0. That the end of the scan reads the records still unread as they stand there is the
model's choice (log entry 4). -/
def Obligations.VictimScanKeepsABestBandAndNamesIt : Prop :=
  ∀ (s : State),
    (∀ b r, s.eligibleFull b r = true ↔
      r.state = .full ∧ 1 ≤ r.live ∧ r.live < (s.shape b).capacity ∧ r.live ≤ s.cleanerRoom)
    ∧ (∀ mode, (s.scanRest { mode := mode, cursor := 0, kept := none }).kept.isSome ↔
      ∃ b r, s.band b = some r ∧ s.eligibleFull b r = true)
    ∧ (∀ (mode : CleanerMode) (b score : Nat),
      (s.scanRest { mode := mode, cursor := 0, kept := none }).kept = some (b, score) →
      ∃ r, s.band b = some r ∧ s.eligibleFull b r = true
        ∧ score = scoreOf mode (s.shape b).capacity s.bands.closeCounter r
        ∧ ∀ c q, s.band c = some q → s.eligibleFull c q = true →
            let other := scoreOf mode (s.shape c).capacity s.bands.closeCounter q
            other ≤ score ∧ (other = score → b ≤ c))
    ∧ ∀ (t : TableScan), s.cleaner.state = .selecting → s.cleaner.table = some t → s.recovery.part = .ready →
    (∀ b k r, (s.scanRest t).kept = some (b, k) → s.band b = some r → r.state = .full →
      ∃ u : State, exec .victimScanEnd s = .next u.react
        ∧ u.band b = some { r with state := .cleaning } ∧ (∀ c, c ≠ b → u.band c = s.band c)
        ∧ u.bands.emptyCount = s.bands.emptyCount
        ∧ u.cleaner.state = .relocating ∧ u.cleaner.victim = some (b, .cleaning)
        ∧ u.cleaner.scan = some { kind := if r.footer then .footer else .tags, cursor := 0, ranges := [] }
        ∧ u.cleaner.candidates = [] ∧ u.map = s.map ∧ u.staging = s.staging ∧ u.ports = s.ports ∧ u.seq = s.seq)
    ∧ ((s.scanRest t).kept = none → ∃ u : State, exec .victimScanEnd s = .next u.react
        ∧ u = { s with cleaner := u.cleaner } ∧ u.cleaner.state = .selecting ∧ u.cleaner.victim = s.cleaner.victim)
    ∧ ∀ b k r, (s.scanRest t).kept = some (b, k) → s.band b = some r → r.state ≠ .full →
      let waits (a : Nat) : Prop := ∃ q, (a, .awaiting) ∈ s.cleaner.retired ∧ s.band a = some q ∧ q.live ≤ s.cleanerRoom
      (∀ a q, waits a → s.band a = some q → (∀ c, waits c → a ≤ c) → ∃ u : State, exec .victimScanEnd s = .next u.react
        ∧ u = { s with cleaner := u.cleaner } ∧ u.cleaner.state = .relocating ∧ u.cleaner.victim = some (a, .retired)
        ∧ u.cleaner.table = none ∧ u.cleaner.retired = s.cleaner.retired ∧ u.cleaner.candidates = []
        ∧ u.cleaner.scan = some { kind := if q.footer then .footer else .tags, cursor := 0, ranges := [] })
      ∧ ((∀ a, ¬waits a) → ∃ u : State, exec .victimScanEnd s = .next u.react
        ∧ u = { s with cleaner := u.cleaner } ∧ u.cleaner.state = .selecting ∧ u.cleaner.victim = s.cleaner.victim
        ∧ u.cleaner.table = some { mode := s.cleaner.mode, cursor := 0, kept := none })

/-- R33, R36, R108, R112, R113, R115, R120, R121: the Cleaner's reads of a victim of either kind. A read that ends drops its
reference. The blocks of a data read have their slots GATHERED with kind RELOCATED at the tail of the cleaner stream's queue,
in offset order, with the data read. A tag scan read adds a candidate for each block whose tag is valid and of a HOST or
RELOCATED entry, and puts its unrecovered offsets on the unknown list; a read of footer blocks adds one for each such entry of
the offsets 256 i on below C(z) that block i describes, and leaves the offsets of a block it could not read to the tags, in a
range of its own (that a block which is no footer counts as such is log entry 12). The scan goes on after what was read,
through the ranges that are left before the footer's next block. An unrecovered block of a data read frees its slot and leaves
relocation; one that is LIVE in a CLEANING victim makes the band RETIRED and ATTEMPTED with its RETIRE record appended, and
the pass goes on over a retired victim, whose unreadable blocks change nothing more. A data read that completes NOT READY
frees its slots and puts its blocks on the recheck list; a scan read that does leaves the scan where it stood. -/
def Obligations.CleanerReadsAreTaken : Prop :=
  (∀ (s : State) (f : InFlight) (blocks : List MediaBlock) (rec : BandRecord) (i : Instr) (xs : List (Option MediaBlock)),
    s.seq.state = .transferring → s.seq.current = some f → f.op.kind = .readRun → f.op.origin = .cleaner →
    f.delivered.length = f.next → 0 < f.op.count → s.band (opBand f.op) = some rec →
    rec.state = .cleaning ∨ rec.state = .retired → s.recovery.part ≠ .faulted →
    (i = .readTransferGood blocks ∧ f.next + blocks.length = f.op.count ∧ xs = f.delivered ++ blocks.map some)
      ∨ (i = .readError blocks ∧ f.next + blocks.length + 1 = f.op.count ∧ 4 ≤ (f.deliver blocks).retries
          ∧ xs = f.delivered ++ blocks.map some ++ [none]) →
    let reads (rest : State → Prop) : Prop := ∃ u : State, exec i s = .next u.react
      ∧ u.seq.state = .idle ∧ u.seq.current = none ∧ u.band (opBand f.op) = some { rec with refs := rec.refs - 1 }
      ∧ u.cleaner.outstanding = s.cleaner.outstanding - 1 ∧ u.map = s.map ∧ u.ports = s.ports ∧ u.geo = s.geo
      ∧ u.recovery = s.recovery ∧ rest u
    (∀ (slots : List Nat) (ms : List MediaBlock), f.op.scan = false → xs = ms.map some → f.op.slots = slots.map some →
      slots.length = f.op.count → slots.Nodup →
      reads fun u => (u.placer .cleaner).queue = (s.placer .cleaner).queue ++ slots
        ∧ u.cleaner.candidates = s.cleaner.candidates ∧ u.staging.charges = s.staging.charges
        ∧ ∀ n m x, (n, m) ∈ slots.zip ms → s.slot n = some x → u.slot n = some { x with
            state := .gathered, kind := some .relocated, data := contentData m.content })
    ∧ ∀ (v : VictimScan) (k : VictimKind), f.op.scan = true → s.cleaner.scan = some v → s.cleaner.victim = some (opBand f.op, k) →
      let capacity := (s.shape (opBand f.op)).capacity
      let offsets := countFrom (opFirst f.op) f.op.count
      let next := opFirst f.op + f.op.count
      let goesOn (found : List (Nat × Nat)) (scan : VictimScan) (unknown : List Nat) : Prop := reads fun u =>
        u.staging = s.staging ∧ u.cleaner.scanRead = false ∧ u.cleaner.scan = some scan
        ∧ u.cleaner.unknown = s.cleaner.unknown ++ unknown ∧ u.cleaner.candidates = s.cleaner.candidates ++ found
      (v.kind = .tags ∨ v.ranges ≠ [] → goesOn
        ((offsets.zip xs).filterMap fun x => match x.2.bind fun m => m.tag with
          | none => none
          | some t => if t.check = s.geo.checkWord ∧ (t.entry.kind = .host ∨ t.entry.kind = .relocated) then
              some (x.1, t.entry.lbn) else none)
        (match v.ranges with
          | [] => { v with cursor := next }
          | (_, hi) :: rest => { v with ranges := if hi ≤ next then rest else (next, hi) :: rest })
        ((offsets.zip xs).filterMap fun x => if x.2 = none then some x.1 else none))
      ∧ ∀ j : Nat, v.kind = .footer → v.ranges = [] → opFirst f.op = capacity + j →
        let blocks := (countFrom j f.op.count).zip xs
        goesOn
          (blocks.flatMap fun y => match y.2 with
            | some { content := .footer es, tag := _ } => ((countFrom (256 * y.1) es.length).zip es).filterMap fun z =>
                if z.1 < capacity ∧ (z.2.kind = .host ∨ z.2.kind = .relocated) then some (z.1, z.2.lbn) else none
            | _ => [])
          { v with
            cursor := min (256 * (j + f.op.count)) capacity
            ranges := blocks.filterMap fun y => match y.2 with
              | some { content := .footer _, tag := _ } => none
              | _ => if 256 * y.1 < rec.done then some (256 * y.1, min (256 * y.1 + 256) rec.done) else none }
          [])
  ∧ (∀ (s : State) (f : InFlight) (b o n : Nat) (x : Slot) (k : VictimKind) (rec : BandRecord), s.seq.state = .transferring →
    n ∉ (s.placer .cleaner).queue →
    s.seq.current = some f → f.op.kind = .readRun → f.op.origin = .cleaner → f.op.scan = false → f.op.place = .band b o →
    f.op.count = 1 → f.next = 0 → f.delivered = [] → f.retry = some (0, 4) → f.op.slots = [some n] → s.slot n = some x →
    x.state = .cleaning → x.pins = 0 → s.cleaner.victim = some (b, k) → s.band b = some rec → s.recovery.part = .ready →
    let ends (rest : State → Prop) : Prop := ∃ u : State, exec (.readError []) s = .next u.react
      ∧ u.seq.state = .idle ∧ u.seq.current = none ∧ (∀ z ∈ u.staging.slots, z.number ≠ n)
      ∧ u.cleaner.outstanding = s.cleaner.outstanding - 1 ∧ u.cleaner.inRelocation = s.cleaner.inRelocation - 1
      ∧ u.cleaner.candidates = s.cleaner.candidates ∧ u.cleaner.recheck = s.cleaner.recheck
      ∧ (u.placer .cleaner).queue = (s.placer .cleaner).queue ∧ u.map.current = s.map.current ∧ u.ports = s.ports ∧ rest u
    (rec.state = .cleaning ∧ s.liveCheck x.lbn b o = false ∨ rec.state = .retired ∧ k = .retired →
      ends fun u => u.band b = some { rec with refs := rec.refs - 1 } ∧ u.cleaner.victim = s.cleaner.victim
        ∧ u.recovery = s.recovery)
    ∧ (rec.state = .cleaning → k = .cleaning → s.liveCheck x.lbn b o = true → 0 < rec.live →
      s.recovery.journal.length < Config.journalPlaces →
      ends fun u => u.band b = some { rec with refs := rec.refs - 1, state := .retired }
        ∧ u.cleaner.victim = some (b, .retired) ∧ u.cleaner.drain = false ∧ (b, .attempted) ∈ u.cleaner.retired
        ∧ u.cleaner.state = s.cleaner.state ∧ u.cleaner.scan = s.cleaner.scan
        ∧ ∃ e ∈ u.recovery.journal, e.record = { sequence := s.recovery.nextSequence, kind := .retire b }))
  ∧ ∀ (s : State) (op : MediaOp) (before after : List MediaOp) (rec : BandRecord), s.media.queue = before ++ op :: after →
    (∀ m ∈ before, m.id ≠ op.id) → s.seq.ready = false → s.recovery.part = .ready → op.kind = .readRun →
    op.origin = .cleaner → s.band (opBand op) = some rec → rec.state = .cleaning ∨ rec.state = .retired →
    let leaves (rest : State → Prop) : Prop := ∃ u : State, exec (.readinessTimerExpiry op.id) s = .next u.react
      ∧ u.media.queue = before ++ after ∧ u.band (opBand op) = some { rec with refs := rec.refs - 1 }
      ∧ u.cleaner.outstanding = s.cleaner.outstanding - 1 ∧ u.cleaner.candidates = s.cleaner.candidates
      ∧ u.cleaner.victim = s.cleaner.victim ∧ u.map = s.map ∧ u.ports = s.ports ∧ rest u
    (∀ slots : List Nat, op.scan = false → op.slots = slots.map some → slots.Nodup →
      (∀ n ∈ slots, ∃ x, s.slot n = some x ∧ x.pins = 0) →
      leaves fun u => u.cleaner.recheck = s.cleaner.recheck ++ ((countFrom (opFirst op) slots.length).zip slots).filterMap (fun y =>
            (s.slot y.2).map fun x => (y.1, x.lbn))
        ∧ u.cleaner.inRelocation = s.cleaner.inRelocation - slots.length
        ∧ ∀ n ∈ slots, ∀ z ∈ u.staging.slots, z.number ≠ n)
    ∧ ∀ v k, op.scan = true → s.cleaner.scan = some v → s.cleaner.victim = some (opBand op, k) →
      let capacity := (s.shape (opBand op)).capacity
      (∃ hi rest, v.ranges = (opFirst op, hi) :: rest ∧ opFirst op < hi)
        ∨ (v.ranges = [] ∧ v.kind = .tags ∧ opFirst op = v.cursor)
        ∨ (v.ranges = [] ∧ v.kind = .footer ∧ capacity ≤ opFirst op ∧ 256 * (opFirst op - capacity) = v.cursor ∧ v.cursor ≤ capacity) →
      leaves fun u => u.cleaner.scan = some v ∧ u.cleaner.scanRead = false ∧ u.cleaner.unknown = s.cleaner.unknown
        ∧ u.staging = s.staging

/-- R33, R63, R114, R117: in RELOCATING with fewer than 4 reads outstanding, one transition of the Cleaner forms a run from
the front of its candidates: the DEAD ones before it leave the list, and it goes on through LIVE candidates of consecutive
offsets of one track, up to 64, to the first that is DEAD, which leaves the list too, or that does not follow. Its candidates
leave the list, the reads outstanding rise by 1 and the victim's read references by 1. With the account at its limit a
CLEANING slot for each block is requested and waits; with room for all of them each gets a CLEANING slot with its LBN, source
band and offset, they count as blocks in relocation, and the run enters the queue. At the recheck timer's expiry the entries
of the recheck list that are DEAD are removed, those that are LIVE and staged are kept in their order, and those that are LIVE
and not staged are candidates again, which stand in offset order. A candidate that re-entered takes the Cleaner back to
RELOCATING, and the timer runs again while entries are kept; that it is stopped otherwise is the model's choice (log entry
12). -/
def Obligations.TheCleanerFormsItsReadsAndRechecks : Prop :=
  (∀ (s : State) (b : Nat) (k : VictimKind) (rec : BandRecord) (dead run rest : List (Nat × Nat)),
    s.cleaner.victim = some (b, k) → s.band b = some rec → s.recovery.part = .ready → s.cleaner.state = .relocating →
    s.cleaner.outstanding < 4 → s.cleaner.candidates = dead ++ run ++ rest → s.cleaner.candidates ≠ [] →
    let live (e : Nat × Nat) : Bool := s.liveCheck e.2 b e.1
    let track := (s.shape b).track
    let follows (first : Nat × Nat) (n : Nat) (e : Nat × Nat) : Prop := n < 64 ∧ e.1 = first.1 + n ∧ e.1 / track = first.1 / track
    (∀ e ∈ dead, live e = false) →
    let t := s.cleanerStep
    (run = [] → rest = [] → t = { s with cleaner := { s.cleaner with mode := s.modeNow, candidates := [] } })
    ∧ ∀ first, run.head? = some first → (∀ i e, run[i]? = some e → live e = true ∧ follows first i e) →
      (∀ e, rest.head? = some e → follows first run.length e → live e = false) →
      let left (l : List (Nat × Nat)) : Prop := (∀ e more, rest = e :: more → follows first run.length e → l = more)
        ∧ ((∀ e, rest.head? = some e → ¬follows first run.length e) → l = rest)
      left t.cleaner.candidates ∧ t.cleaner.outstanding = s.cleaner.outstanding + 1 ∧ t.cleaner.state = .relocating
      ∧ t.band b = some { rec with refs := rec.refs + 1 } ∧ t.map = s.map ∧ t.seq = s.seq ∧ t.ports = s.ports
      ∧ (accountLimit s.staging.size .cleaner ≤ s.staging.charges.get .cleaner →
          t.staging = { s.staging with requests := s.staging.requests.set .cleaner (s.staging.requests.get .cleaner
            ++ run.map fun e : Nat × Nat => .cleaning s.media.stamp e.2 e.1) }
          ∧ t.media.queue = s.media.queue ∧ t.cleaner.inRelocation = s.cleaner.inRelocation
          ∧ ∃ f, t.media.forming = s.media.forming ++ [f] ∧ f.id = s.media.stamp ∧ f.origin = .cleaner ∧ f.band = b
            ∧ f.first = first.1 ∧ f.lbns = run.map fun e : Nat × Nat => e.2)
      ∧ (s.staging.requests.get .cleaner = [] → s.queueRoom = true → s.RunsNumbered →
          s.staging.charges.get .cleaner + run.length ≤ accountLimit s.staging.size .cleaner →
          t.staging.charges.get .cleaner = s.staging.charges.get .cleaner + run.length
          ∧ t.cleaner.inRelocation = s.cleaner.inRelocation + run.length ∧ t.media.forming = s.media.forming
          ∧ ∃ op : MediaOp, t.media.queue = s.media.queue ++ [op] ∧ op.kind = .readRun ∧ op.origin = .cleaner ∧ op.scan = false
            ∧ op.place = .band b first.1 ∧ op.count = run.length ∧ op.slots.length = run.length
            ∧ ∀ (i : Nat) (e : Nat × Nat), run[i]? = some e → ∃ n x, op.slots[i]? = some (some n) ∧ x ∈ t.staging.slots ∧ x.number = n
              ∧ x.state = .cleaning ∧ x.lbn = e.2 ∧ x.origin = .stream .cleaner ∧ x.source = some (b, e.1)))
  ∧ ∀ (s : State) (b : Nat) (k : VictimKind), s.cleaner.victim = some (b, k) → s.cleaner.recheckTimer = true →
    s.recovery.part = .ready →
    let live (e : Nat × Nat) : Bool := s.liveCheck e.2 b e.1
    let again := s.cleaner.recheck.filter fun e => live e && (s.indexed e.2).isNone
    ∃ u : State, exec .recheckTimerExpiry s = .next u.react ∧ u = { s with cleaner := u.cleaner }
      ∧ u.cleaner.recheck = s.cleaner.recheck.filter (fun e => live e && (s.indexed e.2).isSome)
      ∧ u.cleaner.candidates.Perm (s.cleaner.candidates ++ again)
      ∧ u.cleaner.candidates.Pairwise (fun x y => x.1 ≤ y.1)
      ∧ u.cleaner.recheckTimer = decide (u.cleaner.recheck ≠ [])
      ∧ u.cleaner.state = (if again = [] then s.cleaner.state else .relocating)
      ∧ u.cleaner.victim = s.cleaner.victim

/-! ### The end of an event -/

/-- R39, R80, R159, R160, R163, R165: at the end of every event a READ whose every block has been pushed and answered or has
failed is FINISHED: DONE where no block failed, else by its failed block of lowest index MEDIA ERROR where that was
unrecovered and NOT READY where it was not read; with the blocks pushed as blocks done, the unmapped and staged counts in
result word 0, and the lowest failed index and the number of failed blocks in result word 1. A READ with a block left stays
RUNNING as it is. Likewise a WRITE whose blocks are all accepted is FINISHED DONE with its count once no pad request of its
own is open; a FLUSH once no pad request of its own is open and its journal write has been answered, DONE or MEDIA ERROR, with
the slots of its sets in result word 0; a BAND REPORT once every entry has been pushed and answered, DONE with its count. Each
stays RUNNING as it is till then. A BAND REPORT reads its band records one after another, each as it stands when it is read,
and pushes its block of entries when that is full or the last entry is in it. An entry stands at byte 32 k of the block with
the band number, state, footer and close number bits, faults, wp, done mark, live count and close number in the bytes of
section 9.6, and every other byte is 0. That a step on an empty queue reads one band record, and where the finish stands among
the effects of an event, are the model's choices (log entries 1, 4, 8 and 10); here one BAND REPORT alone has records left. -/
def Obligations.ReadsWritesFlushesAndReportsFinish : Prop :=
  (∀ (s : State) (p : Port) (c : Command) (next staged unmapped pushed : Nat) (missed : Bool) (failed : List (Nat × FailedBlock)),
    c ∈ (s.port p).list → (∀ d ∈ (s.port p).list, d.id = c.id → d = c) → c.status = none →
    c.work = .read next missed staged unmapped pushed failed →
    let finishes (st : Status) (word1 : Nat) : Prop := ∃ d ∈ (s.react.port p).list, d.id = c.id ∧ d.record = c.record
      ∧ d.status = some { status := st, blocks := pushed, result0 := BitVec.ofNat 64 (unmapped + staged * 2 ^ 32)
                          result1 := BitVec.ofNat 64 word1 }
    (pushed + failed.length ≠ c.record.count.toNat → c ∈ (s.react.port p).list)
    ∧ (pushed + failed.length = c.record.count.toNat →
      (failed = [] → finishes .done 0)
      ∧ ∀ i why, (i, why) ∈ failed → (∀ x ∈ failed, i ≤ x.1) → (∀ x ∈ failed, x.1 = i → x.2 = why) →
        finishes (if why = .unrecovered then .mediaError else .notReady) (i + failed.length * 2 ^ 32)))
  ∧ (∀ (s : State) (p : Port) (c : Command), c ∈ (s.port p).list → (∀ d ∈ (s.port p).list, d.id = c.id → d = c) → c.status = none →
    (∀ q, ∀ n ∈ (s.port q).pulled, ∀ x, s.slot n = some x → x.command ≠ some (p, c.id)) →
    let n := c.record.count.toNat
    let padded : Prop := ∃ st, ∃ r ∈ (s.react.placer st).requests, r.owner = .command p c.id
    let stays : Prop := c ∈ (s.react.port p).list
    let finishes (st : Status) (blocks word0 : Nat) : Prop := ∃ d ∈ (s.react.port p).list, d.id = c.id ∧ d.record = c.record
      ∧ d.status = some { status := st, blocks := blocks, result0 := BitVec.ofNat 64 word0, result1 := 0 }
    (∀ next accepted built, c.work = .write next accepted built →
      (accepted = n → ¬padded → finishes .done n 0) ∧ (accepted ≠ n ∨ padded → stays))
    ∧ (∀ total journal, c.work = .flush total journal →
      (∀ ok, journal = some ok → ¬padded → finishes (if ok then .done else .mediaError) 0 total)
      ∧ (journal = none ∨ padded → stays))
    ∧ ∀ next read entries, c.work = .report next read entries →
      (entries = n → finishes .done n 0) ∧ (entries ≠ n → stays))
  ∧ (∀ (s : State) (p : Port) (c : Command) (k entries : Nat) (read : List (Nat × BandRecord)) (r : BandRecord), s.pending = [] →
    s.recovery.part = .ready → s.cleaner.state ≠ .selecting ∨ s.cleaner.table = none → s.readers = [(p, c)] →
    c.work = .report k read entries → s.band (c.record.lbn.toNat + k) = some r →
    let all := read ++ [(c.record.lbn.toNat + k, r)]
    let goes (left : List (Nat × BandRecord)) (rest : State → Prop) : Prop := ∃ t, step s = .next t
      ∧ { c with work := .report (k + 1) left entries } ∈ (t.port p).list
      ∧ (t.port p).list.length = (s.port p).list.length ∧ (∀ d ∈ (s.port p).list, d.id ≠ c.id → d ∈ (t.port p).list)
      ∧ t.port (otherPort p) = s.port (otherPort p) ∧ t = { s with ports := t.ports } ∧ rest t
    ((k + 1) % 128 ≠ 0 → k + 1 ≠ c.record.count.toNat → goes all fun t => (t.port p).pushes = (s.port p).pushes)
    ∧ ((k + 1) % 128 = 0 ∨ k + 1 = c.record.count.toNat → goes [] fun t => (t.port p).pushes = (s.port p).pushes
        ++ [{ cmd := c.id, index := k / 128, address := blockAddress c.record.pieces (k / 128)
              block := bandEntriesBlock 0 all, slot := none }]))
  ∧ ∀ (entries : List (Nat × BandRecord)), entries.length ≤ 128 →
    let byte (i : Nat) : Nat := (blockRead (bandEntriesBlock 0 entries) i).toNat
    (∀ i, 32 * entries.length ≤ i → byte i = 0)
    ∧ ∀ (k b : Nat) (r : BandRecord), entries[k]? = some (b, r) →
      let word (i : Nat) : Nat := byte (32 * k + i) + byte (32 * k + i + 1) * 2 ^ 8 + byte (32 * k + i + 2) * 2 ^ 16
        + byte (32 * k + i + 3) * 2 ^ 24
      word 0 = b % 2 ^ 32
      ∧ byte (32 * k + 4) = (match r.state with
        | .empty => 0
        | .opened => 1
        | .full => 2
        | .cleaning => 3
        | .retired => 4)
      ∧ byte (32 * k + 5) = (if r.footer then 1 else 0) + (if r.closeNumber.isSome then 2 else 0)
      ∧ byte (32 * k + 6) = r.faults % 256 ∧ byte (32 * k + 7) = 0
      ∧ word 8 = r.wp % 2 ^ 32 ∧ word 12 = r.done % 2 ^ 32 ∧ word 16 = r.live % 2 ^ 32
      ∧ word 20 = (r.closeNumber.map fun n => n.toNat).getD 0 ∧ word 24 = 0 ∧ word 28 = 0

/-- R64, R77, R79, R80, R81, R84, R160: the GOOD answer to a data or pad run frees each HELD slot whose next track the new
done mark has passed, where no READ has it pinned, and keeps the others; a pinned one is release due. A slot that becomes FREE
leaves the sets of its stream's pad requests, and a request is satisfied, and leaves, with the last slot of its set. A placer
is PLACING while a set slot waits in its queue; with none waiting, its band free of a run and of a suspect window and wp below
C(z), it enters PADDING where a set slot is HELD, or, from NONE, where a slot request waits on its account at its limit,
nothing waits in its queue, wp is above 0 and its retention list is not empty, to the end of the track after the last one that
holds data. With none waiting, a placer in PADDING stays there while it has its band, and one without a band is in NONE. At
the acceptance of its last block a DURABLE WRITE makes its pad request, for its slots that are not FREE, and stays RUNNING;
another WRITE finishes DONE. That it stays PLACING while the run that took the last set slots is out, that a request waits
where its account is at its limit, and that no other event than a pad run, a skip or the loss of its band takes a placer in
PADDING to NONE, is the model's reading (log entry 9). -/
def Obligations.HeldSlotsAndPadRequestsEnd : Prop :=
  (∀ (s : State) (f : InFlight) (st : Stream) (r : OutstandingRun) (rec : BandRecord), s.seq.state = .transferring →
    s.seq.current = some f → f.op.kind = .writeRun → s.runOf f.op = some (st, r) → r.kind ≠ .footer →
    (s.placer st).band = some r.band → s.band r.band = some rec → rec.state = .opened → rec.suspect = none →
    s.SlotsInOrder → (s.placer st).retention.Nodup →
    (∀ n ∈ (s.placer st).retention, n ∉ r.slots ∧ ∃ x, s.slot n = some x ∧ x.origin = .stream st) →
    let safe (n : Nat) : Prop := ∃ x place, s.slot n = some x ∧ x.place = some place
      ∧ (place.track + 2) * (s.shape r.band).track ≤ r.first + r.count
    ∃ u : State, exec .writeTransferGood s = .next u.react
      ∧ ∀ n ∈ (s.placer st).retention, ∀ x, s.slot n = some x →
        (safe n → n ∉ (u.placer st).retention
          ∧ (x.pins = 0 → (∀ z ∈ u.staging.slots, z.number ≠ n) ∧ ∀ q ∈ (u.placer st).requests, n ∉ q.slots)
          ∧ (0 < x.pins → u.slot n = some { x with releaseDue := true }))
        ∧ (¬safe n → n ∈ (u.placer st).retention ∧ u.slot n = some x
          ∧ ∀ q ∈ (s.placer st).requests, n ∈ q.slots → ∃ q' ∈ (u.placer st).requests, q'.owner = q.owner ∧ n ∈ q'.slots))
  ∧ (∀ (s : State) (n : Nat) (x : Slot) (st : Stream), s.slot n = some x → x.number = n → x.pins = 0 → x.origin = .stream st →
    (∀ z ∈ (s.freeSlot n).staging.slots, z.number ≠ n)
    ∧ ∀ o left, ({ owner := o, slots := left } : PadRequest) ∈ ((s.freeSlot n).placer st).requests ↔
        left ≠ [] ∧ ∃ q ∈ (s.placer st).requests, q.owner = o ∧ left = q.slots.filter fun k => decide (k ≠ n))
  ∧ (∀ (s : State) (p q : Port) (n id next accepted : Nat) (built : List Nat) (rest : List Nat) (x : Slot) (c : Command),
    (s.port p).pulled = n :: rest → s.slot n = some x → x.command = some (q, id) → s.command q id = some c → c.status = none →
    c.work = .write next accepted built → accepted + 1 = c.record.count.toNat →
    s.interiorFor x = none ∨ 2 ≤ s.map.available →
    let set := (s.staging.slots.filter fun y => decide (y.command = some (q, id))).map fun y => y.number
    ∃ u : State, exec (.acceptance p) s = .next u.react
      ∧ (durableBit c.record.flags = true →
          (u.placer (writeStream q c.record)).requests
            = (s.placer (writeStream q c.record)).requests ++ [{ owner := .command q id, slots := set }]
          ∧ ∃ d ∈ (u.port q).list, d.id = id ∧ d.status = none ∧ d.work = .write next (accepted + 1) built)
      ∧ (durableBit c.record.flags = false →
          (∀ st, (u.placer st).requests = (s.placer st).requests)
          ∧ ∃ d ∈ (u.port q).list, d.id = id
            ∧ d.status = some { status := .done, blocks := c.record.count.toNat, result0 := 0, result1 := 0 }))
  ∧ ∀ (s : State) (st : Stream),
    let x := s.placer st
    let set := (x.requests.map fun q => q.slots).flatten
    ((∃ n ∈ set, n ∈ x.queue) → s.padStateNow st = .placing)
    ∧ ((∀ n ∈ set, n ∉ x.queue) → (s.openBand st = none → s.padStateNow st = .none)
        ∧ (s.openBand st ≠ none → isPadding x.pad = true → s.padStateNow st = x.pad))
    ∧ ∀ b r, (∀ n ∈ set, n ∉ x.queue) → s.openBand st = some (b, r) → isPadding x.pad = false →
      let sh := s.shape b
      let t := r.wp / sh.track
      let free : Prop := x.run = none ∧ r.suspect = none
      (x.pad = .placing → set ≠ [] → ¬free → s.padStateNow st = .placing)
      ∧ (free → 0 < sh.track → r.wp < sh.capacity →
          (∃ n ∈ set, n ∈ x.retention)
            ∨ (x.pad = .none ∧ 0 < r.wp ∧ x.retention ≠ [] ∧ s.waitingCount st = 0
                ∧ s.staging.requests.get (s.staging.streamAccount st) ≠ []
                ∧ accountLimit s.staging.size (s.staging.streamAccount st)
                    ≤ s.staging.charges.get (s.staging.streamAccount st)) →
          s.padStateNow st
            = .padding (min (if r.wp % sh.track = 0 then r.wp + sh.track else (t + 2) * sh.track) sh.capacity))
      ∧ (free → (∀ n ∈ set, n ∉ x.retention) → s.staging.requests.get (s.staging.streamAccount st) = [] →
          s.padStateNow st = .none)

/-- R20, R29, R33, R35, R51, R107, R119, R133: a held release is tested at the end of an event in which its request arrived,
its band's live count was lowered, a read reference of the band was dropped or a journal write completed with success. Where
the CLEANING band then has no live block and no read reference and no journal record is unwritten, the band is EMPTY with the
values a grant finds, the EMPTY count has risen, no release is held, and in READY the Cleaner has left its victim. Where one
of the three is unmet, and at the end of an event of another kind whatever they are, the release stays held and the band as it
was. Where the journal is the only condition unmet, a journal write is under way for the Cleaner in READY. In FAULTED the
Cleaner stays as it stands. A dropped reference and a change of the map bring the test about for their bands alone; a
checkpoint's finish brings about none, whatever it releases. That the test stands at the end of its event, and where among the
effects of that end, is the model's choice, and that a journal write that fails brings about none is its reading (log entries
1 and 10). -/
def Obligations.AHeldReleaseEmptiesItsBand : Prop :=
  ∀ (s : State) (b : Nat) (r : BandRecord), s.bands.release = some b → s.band b = some r → r.state = .cleaning →
    s.cleaner.victim = some (b, .cleaning) → s.cleaner.state = .releasing → (∀ e ∈ s.cleaner.retired, e.1 ≠ b) →
    let met : Prop := s.bands.retest = true ∧ r.live = 0 ∧ r.refs = 0 ∧ s.recovery.unwritten = []
    (met → s.react.band b = some emptyBand ∧ s.react.bands.emptyCount = s.bands.emptyCount + 1 ∧ s.react.bands.release = none
      ∧ (s.recovery.part = .ready → ∀ k, s.react.cleaner.victim ≠ some (b, k)))
    ∧ (¬met → s.react.band b = some r ∧ s.react.bands.release = some b ∧ s.react.cleaner.victim = s.cleaner.victim
      ∧ s.react.cleaner.state = .releasing)
    ∧ (r.live = 0 → r.refs = 0 → s.recovery.unwritten ≠ [] → s.recovery.part = .ready →
        s.react.recovery.journalWrite.active = true)
    ∧ (s.recovery.part ≠ .ready → s.react.cleaner = s.cleaner)
    ∧ (∀ d, (s.dropRef d).bands.retest = (s.bands.retest || decide (d = b)) ∧ (s.dropRef d).bands.release = some b)
    ∧ (∀ changes, (s.changeMap changes).bands.release = some b ∧ ((s.changeMap changes).bands.retest = true ↔
        s.bands.retest = true ∨ ∃ n, (b, n) ∈ changesLower s.map.current changes))
    ∧ (s.recovery.part ≠ .rebuilding → ∀ ok,
        (s.endJournalWrite ok).bands = { s.bands with retest := s.bands.retest || ok } ∧ (s.finishCheckpoint ok).bands = s.bands)

/-- R33, R112, R113: in RELOCATING with no candidate left, one transition of the Cleaner makes the next scan read of its
victim, while no scan read is out and fewer than 4 reads are outstanding: of up to 8 footer blocks from the one that describes
the cursor's offset, to the footer's end; or of up to 8 offsets of one track from the cursor on below the done mark; or, where
an unreadable footer block left a range of offsets to the tags, of that range's next offsets first. The read takes a reference
on the victim, counts as outstanding, has no slots, and enters the queue, or waits for a place. With the cursor at C(z), or at
the done mark of a tag scan, and no range left no read is made. That no second scan read is made while one is out is the
model's reading (log entry 12), and so is the mode, which the transition computes anew (log entry 11). -/
def Obligations.TheCleanerScansItsVictim : Prop :=
  ∀ (s : State) (b : Nat) (k : VictimKind) (rec : BandRecord) (v : VictimScan), s.cleaner.victim = some (b, k) →
    s.band b = some rec → s.recovery.part = .ready → s.cleaner.state = .relocating → s.cleaner.candidates = [] →
    s.cleaner.scan = some v →
    let sh := s.shape b
    let t := s.cleanerStep
    let issues (first count : Nat) : Prop :=
      t = { s with cleaner := t.cleaner, bands := t.bands, media := t.media }
      ∧ t.cleaner = { s.cleaner with mode := s.modeNow, scanRead := true, outstanding := s.cleaner.outstanding + 1 }
      ∧ t.band b = some { rec with refs := rec.refs + 1 } ∧ (∀ d, d ≠ b → t.band d = s.band d)
      ∧ ∃ op : MediaOp, op.kind = .readRun ∧ op.origin = .cleaner ∧ op.scan = true ∧ op.place = .band b first ∧ op.count = count
        ∧ op.slots = []
        ∧ (s.queueRoom = true → t.media.queue = s.media.queue ++ [op] ∧ t.media.entryWait = s.media.entryWait)
        ∧ (s.queueRoom = false → t.media.queue = s.media.queue ∧ t.media.entryWait = s.media.entryWait ++ [.op op])
    let reads (first count : Nat) : Prop :=
      (s.cleaner.scanRead = false → s.cleaner.outstanding < 4 → issues first count)
      ∧ (s.cleaner.scanRead = true ∨ 4 ≤ s.cleaner.outstanding → t = { s with cleaner := { s.cleaner with mode := s.modeNow } })
    let tags (lo hi : Nat) : Prop := reads lo (min (min 8 (hi - lo)) (sh.track - lo % sh.track))
    let stops : Prop := 0 < s.cleaner.outstanding → t = { s with cleaner := { s.cleaner with mode := s.modeNow } }
    (∀ lo hi rest, v.ranges = (lo, hi) :: rest → tags lo hi)
    ∧ (v.ranges = [] → v.kind = .tags → (v.cursor < rec.done → tags v.cursor rec.done) ∧ (rec.done ≤ v.cursor → stops))
    ∧ (v.ranges = [] → v.kind = .footer →
      let first := sh.capacity + v.cursor / 256
      (v.cursor < sh.capacity → reads first (min 8 (sh.size - first))) ∧ (sh.capacity ≤ v.cursor → stops))

/-- R36, R106, R107, R111, R117, R118, R119, R120, R121, R132: one transition of the Cleaner, with its mode as it stands. In
IDLE a mode that is not IDLE begins the choice: an eligible AWAITING band at once, else a scan; in SELECTING the mode IDLE
abandons the scan, the other mode restarts it, and with no scan a report or a rise of the cleaner room starts one. With the
scan exhausted, no read outstanding and no block in relocation a CLEANING victim comes to DRAINING, where its recheck list is
gone through, and the pass over a RETIRED one ends. In DRAINING with nothing to recheck and a live block left the victim
becomes RETIRED and ATTEMPTED, with its RETIRE record and a journal write asked for, and the pass over it then ends. In
DRAINING with nothing to recheck and nothing live the drain request is made for every block of the cleaner stream; its
satisfaction takes the Cleaner to RELEASING with its release request, which is to be tested, and a journal write where trims
are unwritten; and the victim's release ends the victim, to SELECTING or IDLE by the mode. Outside READY nothing moves. The
end of an event runs such transitions, so that it never leaves a Cleaner in IDLE in another mode than IDLE. What counts as a
rise of the room, and when the mode is computed, is the model's reading (log entries 10 and 11); that the recheck timer stops
where the recheck list keeps no entry, and that a RETIRE record held apart asks for no journal write yet, are the model's
choices (log entries 12 and 15). -/
def Obligations.TheCleanerMovesThroughItsStates : Prop :=
  ∀ s : State,
    (s.recovery.part ≠ .ready → s.cleanerStep = s)
    ∧ (s.recovery.part = .ready →
      let t := s.cleanerStep
      let c := s.cleaner
      let waits (a : Nat) : Prop := ∃ q, (a, .awaiting) ∈ c.retired ∧ s.band a = some q ∧ q.live ≤ s.cleanerRoom
      let chooses : Prop := t = { s with cleaner := t.cleaner } ∧ t.cleaner.retired = c.retired
        ∧ (∀ a, waits a → (∀ d, waits d → a ≤ d) → t.cleaner.state = .relocating ∧ t.cleaner.victim = some (a, .retired))
        ∧ ((∀ a, ¬waits a) → t.cleaner.state = .selecting ∧ t.cleaner.victim = none
            ∧ t.cleaner.table = some { mode := s.modeNow, cursor := 0, kept := none })
      let leaves (state : CleanerState) : Prop := t = { s with cleaner := t.cleaner } ∧ t.cleaner.state = state
        ∧ t.cleaner.victim = none ∧ t.cleaner.scan = none ∧ t.cleaner.candidates = [] ∧ t.cleaner.recheck = []
        ∧ t.cleaner.unknown = [] ∧ t.cleaner.drain = false
      (c.victim = none → c.state = .idle →
        (s.modeNow = .idle → t = { s with cleaner := { c with mode := .idle } }) ∧ (s.modeNow ≠ .idle → chooses))
      ∧ (c.victim = none → c.state = .selecting →
        (s.modeNow = .idle → t = { s with cleaner := { c with mode := .idle, state := .idle, table := none } })
        ∧ (s.modeNow ≠ .idle →
          (∀ scan, c.table = some scan → scan.mode = s.modeNow → t = { s with cleaner := { c with mode := s.modeNow } })
          ∧ (∀ scan, c.table = some scan → scan.mode ≠ s.modeNow → chooses)
          ∧ (c.table = none → c.rescan = true ∨ s.roomWith c.roomSeen < s.cleanerRoom → chooses)
          ∧ (c.table = none → c.rescan = false → s.cleanerRoom ≤ s.roomWith c.roomSeen →
              t.cleaner.state = .selecting ∧ t.cleaner.table = none ∧ t.cleaner.victim = none)))
      ∧ ∀ b k r, c.victim = some (b, k) → s.band b = some r →
        let passEnds : Prop :=
          let mode := { s with cleaner := { c with retired := t.cleaner.retired } }.modeNow
          (∀ e ∈ t.cleaner.retired, e.1 = b → e.2 = .attempted) ∧ (mode = .idle → leaves .idle)
          ∧ (mode ≠ .idle → (∀ a, a ≠ b → ¬waits a) → leaves .selecting)
        (c.state = .relocating → s.victimPlan = none → c.candidates = [] → c.outstanding = 0 → c.inRelocation = 0 →
          (k = .cleaning → (∀ e ∈ c.recheck, s.liveCheck e.2 b e.1 = true → (s.indexed e.2).isSome) →
            t = { s with cleaner := t.cleaner } ∧ t.cleaner.state = .draining ∧ t.cleaner.victim = c.victim
            ∧ t.cleaner.recheck = c.recheck.filter (fun e => s.liveCheck e.2 b e.1)
            ∧ t.cleaner.recheckTimer = decide (t.cleaner.recheck ≠ []))
          ∧ (k = .retired → passEnds))
        ∧ (c.state = .draining → k = .retired → passEnds)
        ∧ (c.state = .draining → k = .cleaning → c.drain = false → c.recheck = [] → 0 < r.live → r.state = .cleaning →
          t.band b = some { r with state := .retired } ∧ (∀ d, d ≠ b → t.band d = s.band d) ∧ t.cleaner.state = .draining
          ∧ t.cleaner.victim = some (b, .retired) ∧ t.cleaner.unknown = [] ∧ t.cleaner.drain = false
          ∧ (b, .attempted) ∈ t.cleaner.retired ∧ t.map.table = s.map.table ∧ t.bands.release = s.bands.release
          ∧ (s.recovery.journal.length < Config.journalPlaces → t.recovery.journalWrite.active = true
              ∧ ∃ e, t.recovery.journal = s.recovery.journal ++ [e] ∧ e.record
                = { sequence := s.recovery.nextSequence, kind := .retire b } ∧ e.written = false)
          ∧ (Config.journalPlaces ≤ s.recovery.journal.length →
              t.recovery = { s.recovery with heldRetires := s.recovery.heldRetires ++ [b] }))
        ∧ (c.state = .draining → k = .cleaning → c.drain = false → c.recheck = [] → r.live = 0 →
          t.cleaner.drain = true ∧ t.cleaner.state = .draining ∧ (t.placer .cleaner).requests = (s.placer .cleaner).requests
            ++ (if s.streamSet .cleaner = [] then [] else [{ owner := .cleaner, slots := s.streamSet .cleaner }]))
        ∧ (c.state = .draining → k = .cleaning → c.drain = true → s.padOpen .cleaner = true →
          t = { s with cleaner := { c with mode := s.modeNow } })
        ∧ (c.state = .draining → k = .cleaning → c.drain = true → s.padOpen .cleaner = false →
          t.cleaner.state = .releasing ∧ t.bands = { s.bands with release := some b, retest := true } ∧ t.cleaner.victim = c.victim
          ∧ (s.recovery.unwritten = [] → t.recovery = s.recovery)
          ∧ (s.recovery.unwritten ≠ [] → t.recovery.journalWrite.active = true))
        ∧ (c.state = .releasing → s.bands.release = none →
          (s.modeNow = .idle → leaves .idle) ∧ ((∀ a, ¬waits a) → s.modeNow ≠ .idle → leaves .selecting)))
    ∧ (s.recovery.part = .ready → (s.cleaner.state = .idle → s.cleaner.victim = none) → s.react.cleaner.state = .idle →
        s.react.cleaner.mode = .idle)

/-! ### Recovery (chapter 7) and CONFIG CLOSE -/

/-- R1, R19, R40, R61, R124, R125, R134, R157: the load. A copy that is read is valid where it holds a record with the
record's own check word, neither where the word differs or the block was unrecovered, and blank where the block read is no
geometry block at all; that a geometry block alone bears the mark is the model's reading (log entry 16). While the other copy
is awaited nothing else happens. A valid copy, copy 0 first, comes into force, the tables are created, and REBUILDING begins
with the read of the first image's header; with copy 1 alone valid, copy 0 is also written. Copy 0 blank and copy 1 not valid
make the part UNCONFIGURED, where held commands are put to their tests; copy 0 neither and copy 1 not valid make it FAULTED.
While a record is in force in REBUILDING or READY, a check word that agrees changes nothing; one that differs makes the part
FAULTED, both ports latch PART FAULT, every RUNNING command finishes PART FAULT, and the record, the map and the last image
stay. The end of this event (log entry 10) tests a held release, as after every dropped reference. -/
def Obligations.TheLoadEndsAndTheCheckWordIsTested : Prop :=
  (copyResult none = .neither
  ∧ (∀ (g : Geometry) (k : Word32) (tag : Option Tag),
      copyResult (some { content := .system (.geometry g k), tag := tag }) = if k = checkWordOf g then .valid g else .neither)
  ∧ (∀ m : MediaBlock, (∀ g k, m.content ≠ .system (.geometry g k)) → copyResult (some m) = .blank)
  ∧ ∀ (s : State) (f : InFlight) (second : Bool) (m : MediaBlock), s.seq.state = .transferring → s.seq.current = some f →
    f.op.kind = .systemRead → f.op.task = .loadGeometry second → f.op.count = 1 → f.next = 0 → f.delivered = [] →
    s.recovery.part = .loading → s.media.queue.length + s.media.entryWait.length + 1 < Config.queueLimit →
    let copy0 := if second then s.recovery.copy0 else some (copyResult (some m))
    let copy1 := if second then some (copyResult (some m)) else s.recovery.copy1
    let ends (rest : State → Prop) : Prop :=
      ∃ u : State, exec (.readTransferGood [m]) s = .next u.react ∧ u.seq.state = .idle ∧ u.seq.current = none ∧ rest u
    let rebuilds (g : Geometry) (u : State) : Prop := u.recovery.part = .rebuilding ∧ u.geo.inForce = some g
      ∧ u.geo.checkWord = checkWordOf g ∧ u.bands.records = List.replicate (totalBands g) emptyBand
      ∧ u.bands.emptyCount = totalBands g ∧ u.map.table = [] ∧ u.map.freeCount = g.mapCap ∧ u.staging.size = g.slots
      ∧ u.staging.slots = []
      ∧ ∃ op ∈ u.media.queue, op.kind = .systemRead ∧ op.place = .system (imageBase g .first) ∧ op.count = 1
          ∧ op.task = .rebuildRead
    (copy0 = none ∨ copy1 = none → ends fun u => u.recovery.part = .loading ∧ u.recovery.copy0 = copy0
      ∧ u.recovery.copy1 = copy1 ∧ u.geo = s.geo ∧ u.media = s.media ∧ u.ports = s.ports)
    ∧ (∀ g c, copy0 = some (.valid g) → copy1 = some c → ends (rebuilds g))
    ∧ (∀ g c, copy0 = some c → (∀ g', c ≠ .valid g') → copy1 = some (.valid g) → ends fun u => rebuilds g u
        ∧ ∃ op ∈ u.media.queue, op.kind = .systemWrite ∧ op.place = .system 0 ∧ op.system = [.geometry g (checkWordOf g)])
    ∧ (copy0 = some .blank → copy1 = some .blank ∨ copy1 = some .neither →
        ((∀ p, ∀ c ∈ (s.port p).list, c.held = false) → ends fun u => u.recovery.part = .unconfigured ∧ u.geo = s.geo
          ∧ u.ports = s.ports)
        ∧ ∀ c, (s.port .a).list = [c] → (s.port .b).list = [] → c.held = true → c.status = none → 1 ≤ c.opcode →
          c.opcode ≤ 8 → ends fun u => u.recovery.part = .unconfigured ∧ (u.port .a).list = [{ c with
            status := some { status := .notConfigured, blocks := 0, result0 := 0, result1 := 0 }, held := false
            work := .none }])
    ∧ (copy0 = some .neither → copy1 = some .blank ∨ copy1 = some .neither → ends fun u => u.recovery.part = .faulted
        ∧ ∀ p, (u.port p).flags.partFault = true))
  ∧ ∀ (s : State) (g : Geometry), s.geo.inForce = some g → s.recovery.part = .rebuilding ∨ s.recovery.part = .ready →
    (checkWordOf g = s.geo.checkWord → exec .checkWordTest s = .next s)
    ∧ (checkWordOf g ≠ s.geo.checkWord → ∃ t : State, exec .checkWordTest s = .next t.react ∧ t.recovery.part = .faulted
        ∧ t.geo = s.geo ∧ t.map.table = s.map.table ∧ t.map.pendingApply = s.map.pendingApply ∧ t.seq.state = s.seq.state
        ∧ t.recovery.lastImage = s.recovery.lastImage
        ∧ ∀ p, (t.port p).flags = { (s.port p).flags with partFault := true } ∧ (t.port p).process = (s.port p).process
            ∧ (t.port p).list.length = (s.port p).list.length
            ∧ ∀ c ∈ (t.port p).list, (c ∈ (s.port p).list ∧ c.status.isSome)
                ∨ ∃ d, c.status = some d ∧ d.status = .partFault)

/-- R126, R134, R139: the rebuild's system reads, answered GOOD. A header counts where it bears the mark and the check word of
the record in force; after both headers the image of highest sequence is read from its first body block on, and with no valid
header the part is FAULTED. While body blocks are left the next are read. A body whose sum is the header's is taken: as many
extent records as the header says, the band records without owner, reference or suspect window, the run counter at N0, and the
journal's sequences. A body with another sum, or with a block of another form, gives way to the image of highest sequence that
is left, and with none left to FAULTED. A journal block gives, in order, its records whose sequence is the one expected, up to
the end of the block's places, to a sequence it does not hold, or to 65,536 records; then the block of the next sequence is
read where the taking ended at the end of the block, and otherwise the tag at offset 0 of the first band that is not RETIRED.
The run number of each TRIM record in it counts for the run counter. That a body block of another form fails its image, that a
band for which the image has no record is EMPTY, that the journal is read one block at a time, and that each record of a block
read counts, taken or not, are the model's choices (log entry 17). -/
def Obligations.TheRebuildTakesAnImage : Prop :=
  ∀ (s : State) (f : InFlight) (r : Rebuild) (g : Geometry) (blocks : List MediaBlock), s.seq.state = .transferring →
    s.seq.current = some f → f.op.kind = .systemRead → f.op.task = .rebuildRead → f.next = 0 → f.delivered = [] →
    blocks.length = f.op.count → s.recovery.part = .rebuilding → s.recovery.rebuild = some r → s.geo.inForce = some g →
    s.media.queue.length + s.media.entryWait.length < Config.queueLimit →
    let reads (rest : State → Prop) : Prop := ∃ u : State, exec (.readTransferGood blocks) s = .next u.react
      ∧ u.seq.state = .idle ∧ u.seq.current = none ∧ u.geo = s.geo ∧ rest u
    let asks (u : State) (i n : Nat) : Prop := ∃ op, u.media.queue = s.media.queue ++ [op] ∧ op.kind = .systemRead
      ∧ op.place = .system i ∧ op.count = n ∧ op.task = .rebuildRead
    let header (slot : ImageSlot) (m : MediaBlock) : List (ImageSlot × ImageHeader) :=
      match m.content with
      | .system (.header h) => if h.check = s.geo.checkWord then [(slot, h)] else []
      | _ => []
    let tries (headers : List (ImageSlot × ImageHeader)) : Prop :=
      (headers = [] → reads fun u => u.recovery.part = .faulted)
      ∧ (headers ≠ [] → reads fun u => ∃ slot h x, (slot, h) ∈ headers ∧ (∀ y ∈ headers, y.2.sequence ≤ h.sequence)
          ∧ u.recovery.rebuild = some x ∧ x.step = .image slot ∧ x.header = some h ∧ x.cursor = 1 ∧ x.headers.length + 1
            = headers.length
          ∧ asks u (imageBase g slot + 1) (min (systemRemainder g (imageBase g slot + 1)) (imageBlocks g - 1)))
    (∀ m, r.step = .header .first → blocks = [m] → reads fun u => asks u (imageBase g .second) 1
      ∧ ∃ x, u.recovery.rebuild = some x ∧ x.step = .header .second ∧ x.headers = r.headers ++ header .first m)
    ∧ (∀ m, r.step = .header .second → blocks = [m] → tries (r.headers ++ header .second m))
    ∧ (∀ slot h, r.step = .image slot → r.header = some h → addBodies g r (blocks.map some) = none → tries r.headers)
    ∧ (∀ slot h x, r.step = .image slot → r.header = some h → addBodies g r (blocks.map some) = some x →
      x.cursor < imageBlocks g → reads fun u => u.recovery.rebuild = some x ∧ asks u (imageBase g slot + x.cursor)
        (min (systemRemainder g (imageBase g slot + x.cursor)) (imageBlocks g - x.cursor)))
    ∧ (∀ slot h x, r.step = .image slot → r.header = some h → addBodies g r (blocks.map some) = some x →
      imageBlocks g ≤ x.cursor →
      (x.sum = h.sum → reads fun u => u.map.table = x.extents.take h.extents
        ∧ u.map.freeCount = g.mapCap - u.map.table.length ∧ u.map.runCounter = h.watermark
        ∧ u.bands.closeCounter = h.closeCounter ∧ u.recovery.lastImage = some slot ∧ u.recovery.sequence = h.sequence
        ∧ u.recovery.nextSequence = h.firstUnreleased ∧ u.recovery.firstUnreleased = h.firstUnreleased
        ∧ u.recovery.journal = [] ∧ u.EmptyCounted
        ∧ (∀ b i, b < totalBands g → x.bands[b]? = some i → u.band b = some
            { state := i.state, wp := i.wp, done := i.done, live := i.live, owner := none, closeNumber := i.closeNumber,
              footer := i.footer, faults := i.faults, refs := 0, suspect := none })
        ∧ (∀ b, b < totalBands g → x.bands.length ≤ b → u.band b = some emptyBand)
        ∧ asks u (journalBase g + h.firstUnreleased % Config.journalPlaces / Config.journalPerBlock) 1)
      ∧ (x.sum ≠ h.sum → tries r.headers))
    ∧ ∀ rs tag, r.step = .journal → blocks = [{ content := .system (.journal rs), tag := tag }] →
      s.recovery.journal.length < Config.journalPlaces →
      (reads fun u => ∃ y, u.recovery.rebuild = some y ∧ r.above ≤ y.above
        ∧ ∀ x ∈ rs, ∀ first count run, x.kind = .trim first count run → run < y.above)
      ∧ ((∀ x ∈ rs, x.sequence ≠ s.recovery.nextSequence) → reads fun u => u.recovery.journal = s.recovery.journal
        ∧ u.recovery.nextSequence = s.recovery.nextSequence)
      ∧ reads fun u => ∃ taken : List JournalRecord,
          let q := s.recovery.nextSequence
          let block (n : Nat) : Nat := n % Config.journalPlaces / Config.journalPerBlock
          let n := q + taken.length
          let full : Prop := Config.journalPlaces ≤ u.recovery.journal.length
          u.recovery.journal = s.recovery.journal ++ taken.map (fun x => { record := x, written := true })
          ∧ u.recovery.nextSequence = n
          ∧ (∀ i x, taken[i]? = some x → block (q + i) = block q ∧ rs.find? (fun y => decide (y.sequence = q + i)) = some x)
          ∧ (block n ≠ block q ∨ full ∨ ∀ y ∈ rs, y.sequence ≠ n)
          ∧ (block n ≠ block q → ¬full → asks u (journalBase g + block n) 1
              ∧ ∃ x, u.recovery.rebuild = some x ∧ x.step = .journal)
          ∧ (block n = block q ∨ full → ∀ b rec, s.band b = some rec → rec.state ≠ .retired →
              (∀ d e, d < b → s.band d = some e → e.state = .retired) →
              (∃ x, u.recovery.rebuild = some x ∧ x.step = .startTag b 0)
              ∧ ∃ op, u.media.queue = s.media.queue ++ [op] ∧ op.kind = .readRun ∧ op.origin = .recovery
                ∧ op.place = .band b 0 ∧ op.count = 1)

/-- R38, R44, R135, R138, R139: the rebuild's band reads, answered GOOD or left unrecovered. The tag at the first offset of a
track of a band, 0 or later, makes the band a candidate from offset 0 where its run number is N0 or above, with that number as
its floor. Otherwise an OPEN band is one from its done mark with floor N0, and another has the tag of its next track below
C(z) read; after its last such track it is none. Then the tag at offset 0 of the next band that is not RETIRED is read, and
after the last band the footer of the first candidate. An unrecovered block counts as no valid tag. The last tag of the sweep
removes its LBN unless it names it, and the rebuild ends: the bands step is made for its candidates, every live count is
recounted from the map, no band is CLEANING, no FULL band has nothing live, the run counter is one above every number read, or
N0, and the rebuild's checkpoint is requested. That the removal is made also where it splits a record and none is free, and where
the sweep's block could not be read, are the model's choices (log entry 17). -/
def Obligations.TheRebuildReadsTagsAndEnds : Prop :=
  ∀ (s : State) (f : InFlight) (r : Rebuild) (m : Option MediaBlock) (i : Instr), s.seq.state = .transferring →
    s.seq.current = some f → f.op.kind = .readRun → f.op.origin = .recovery → f.op.count = 1 → f.next = 0 → f.delivered = [] →
    s.recovery.part = .rebuilding → s.recovery.rebuild = some r →
    (∃ d, i = .readTransferGood [d] ∧ m = some d) ∨ (i = .readError [] ∧ 4 ≤ (f.deliver []).retries ∧ m = none) →
    let reads (rest : State → Prop) : Prop := ∃ u : State, exec i s = .next u.react
      ∧ u.seq.state = .idle ∧ u.seq.current = none ∧ u.geo = s.geo ∧ u.recovery.part = .rebuilding ∧ rest u
    let n0 := (r.header.map fun h => h.watermark).getD 0
    let valid : Option Entry := (m.bind fun d => d.tag).bind fun t => if t.check = s.geo.checkWord then some t.entry else none
    (∀ b t rec, r.step = .startTag b t → s.band b = some rec → rec.state ≠ .retired →
      s.media.queue.length + s.media.entryWait.length < Config.queueLimit →
      let sh := s.shape b
      let asks (u : State) (band o n : Nat) : Prop := ∃ op, u.media.queue = s.media.queue ++ [op] ∧ op.kind = .readRun
        ∧ op.origin = .recovery ∧ op.place = .band band o ∧ op.count = n
      let goes (todo : List Candidate) (rest : State → Rebuild → Prop) : Prop := reads fun u => ∃ x, u.recovery.rebuild = some x
        ∧ x.todo = todo ∧ r.above ≤ x.above ∧ (∀ e, valid = some e → e.run < x.above) ∧ rest u x
      let onward (todo : List Candidate) : Prop := goes todo fun u x =>
        (∀ c rec', b < c → s.band c = some rec' → rec'.state ≠ .retired →
          (∀ d y, b < d → d < c → s.band d = some y → y.state = .retired) → x.step = .startTag c 0 ∧ asks u c 0 1)
        ∧ ((∀ c rec', b < c → s.band c = some rec' → rec'.state = .retired) → ∀ c rest, todo = c :: rest →
          let sc := s.shape c.band
          x.step = .footer ∧ x.lastRun = 0 ∧ asks u c.band sc.capacity (sc.size - sc.capacity))
      let candidate (start floor : Nat) : Prop := onward (r.todo
        ++ [{ band := b, start := start, floor := floor, footerUsed := false, taken := [], last := none }])
      (∀ e, valid = some e → n0 ≤ e.run → candidate 0 e.run)
      ∧ ((∀ e, valid = some e → e.run < n0) →
        (rec.state = .opened → candidate rec.done n0)
        ∧ (rec.state ≠ .opened → (t + 1) * sh.track < sh.capacity →
            goes r.todo fun u x => x.step = .startTag b (t + 1) ∧ asks u b ((t + 1) * sh.track) 1)
        ∧ (rec.state ≠ .opened → sh.capacity ≤ (t + 1) * sh.track → onward r.todo)))
    ∧ ∀ x b o, r.step = .sweep → r.sweep = [(x, b, o)] → s.recovery.checkpoint.state = .idle →
      let names : Bool := valid.any fun e => (decide (e.kind = .host) || decide (e.kind = .relocated)) && decide (e.lbn = x)
      let read (n : Nat) : Prop := (∃ e, valid = some e ∧ e.run = n)
        ∨ ∃ e ∈ s.recovery.journal, ∃ first count, e.record.kind = .trim first count n
      reads fun u => u.map.table = (if names then s.map.table else removeRange x x s.map.table)
        ∧ (∀ c rec, u.band c = some rec → rec.live = liveIn u.map.table c ∧ rec.state ≠ .cleaning
            ∧ (rec.state = .full → 0 < rec.live))
        ∧ u.bands = (({ s with map := u.map } : State).setBands r.candidates).bands
        ∧ u.EmptyCounted ∧ u.map.reserved = 0 ∧ u.recovery.checkpoint.state ≠ .idle
        ∧ n0 ≤ u.map.runCounter ∧ r.above ≤ u.map.runCounter ∧ (∀ n, read n → n < u.map.runCounter)
        ∧ (u.map.runCounter = n0 ∨ u.map.runCounter = r.above ∨ ∃ n, read n ∧ u.map.runCounter = n + 1)

/-- R75, R113, R135, R136, R138, R139: what a candidate holds. Its footer is used where all its blocks were read, are footer
blocks, and have valid tags with run numbers at or above the floor: it gives the entries of the offsets from the start to
C(z)-1. Otherwise tags are read from the start, at most to the end of a track and C(z). A block of the fill (a valid tag with
a run number at or above the floor and that of the last block taken) is taken with its tag as its entry. After a block not of
the fill the first offset of the next track is read, while it lies below C(z). An unrecovered block, C(z), and the lack of a
further track end the candidate's data. The last written offset is the highest of an entry that is not NONE, and with none the
one before the start. Then the next candidate's footer is read; after the last, the items and trims are applied and the LBNs
at places of candidates that hold other blocks are removed. Each run number read in a valid tag counts for the run counter.
That an unrecovered block ends the data also where a further track's first offset is read is the model's reading (log entry
17). -/
def Obligations.ACandidateGivesItsBlocks : Prop :=
  (∀ (s : State) (f : InFlight) (r : Rebuild) (c : Candidate) (more : List Candidate) (i : Instr) (all : List (Option MediaBlock)),
    s.seq.state = .transferring → s.seq.current = some f → f.op.kind = .readRun → f.op.origin = .recovery →
    f.delivered.length = f.next → s.recovery.part = .rebuilding → s.recovery.rebuild = some r → r.todo = c :: more →
    s.media.queue.length + s.media.entryWait.length < Config.queueLimit → all.length = f.op.count →
    (∃ blocks, i = .readTransferGood blocks ∧ all = f.delivered ++ blocks.map some)
      ∨ (∃ blocks, i = .readError blocks ∧ 4 ≤ (f.deliver blocks).retries ∧ all = f.delivered ++ blocks.map some ++ [none]) →
    let sh := s.shape c.band
    let valid (m : MediaBlock) : Option Entry := m.tag.bind fun t => if t.check = s.geo.checkWord then some t.entry else none
    let goes (rest : State → Prop) : Prop :=
      ∃ u : State, exec i s = .next u.react ∧ u.seq.state = .idle ∧ u.seq.current = none ∧ u.geo = s.geo ∧ rest u
    let asks (u : State) (b o n : Nat) : Prop := ∃ op, u.media.queue = s.media.queue ++ [op] ∧ op.kind = .readRun
      ∧ op.origin = .recovery ∧ op.place = .band b o ∧ op.count = n
    let counted (x : Rebuild) : Prop := r.above ≤ x.above ∧ ∀ m e, some m ∈ all → valid m = some e → e.run < x.above
    let reads (d : Candidate) (o n last : Nat) (hop : Bool) : Prop := goes fun u => u.map = s.map ∧ asks u c.band o n
      ∧ ∃ x, u.recovery.rebuild = some x ∧ x.todo = d :: more ∧ x.candidates = r.candidates ∧ x.step = .tags o hop
        ∧ x.lastRun = last ∧ counted x
    let ends (holds : Candidate → Prop) : Prop :=
      (∀ d2 others, more = d2 :: others → goes fun u => u.map = s.map
        ∧ asks u d2.band (s.shape d2.band).capacity ((s.shape d2.band).size - (s.shape d2.band).capacity)
        ∧ ∃ x d, u.recovery.rebuild = some x ∧ x.todo = more ∧ x.candidates = r.candidates ++ [d] ∧ x.step = .footer
          ∧ x.lastRun = 0 ∧ holds d ∧ d.last = lastWritten d ∧ counted x)
      ∧ (more = [] → goes fun u => ∃ d gone, holds d ∧ d.last = lastWritten d ∧
          let cs := r.candidates ++ [d]
          let table := replayAll s.mapCap ((cs.map candidateItems).flatten
            ++ journalItems ((r.header.map fun h => h.watermark).getD 0) s.recovery.journal) s.map.table
          u.map.table = removeLbns gone table ∧ u.map.freeCount = s.mapCap - u.map.table.length
          ∧ ∀ x, x ∈ gone ↔ ∃ e ∈ table, ∃ k, k < e.length ∧ x = e.first + k
            ∧ ∃ d', cs.find? (fun d => decide (d.band = e.band ∧ d.start ≤ e.offset + k)) = some d'
              ∧ ∃ y, d'.taken.find? (fun z => decide (z.1 = e.offset + k)) = some y
                ∧ ¬((y.2.kind = .host ∨ y.2.kind = .relocated) ∧ y.2.lbn = x))
    let same (d : Candidate) : Prop := d.band = c.band ∧ d.start = c.start ∧ d.floor = c.floor
    (r.step = .footer →
      let used : Prop := ∀ y ∈ all, ∃ m e es, y = some m ∧ valid m = some e ∧ c.floor ≤ e.run ∧ m.content = .footer es
      (used → ends fun d => same d ∧ d.footerUsed = true ∧ ∀ o e, (o, e) ∈ d.taken ↔ c.start ≤ o ∧ o < sh.capacity
        ∧ ((all.map fun y => match y with
            | some { content := .footer es, tag := _ } => es
            | _ => []).flatten)[o]? = some e)
      ∧ (¬used → c.start < sh.capacity →
          reads c c.start (min (sh.track - c.start % sh.track) (sh.capacity - c.start)) r.lastRun false)
      ∧ (¬used → sh.capacity ≤ c.start → ends fun d => d = { c with last := d.last }))
    ∧ ∀ o hop (good : List MediaBlock) (es : List Entry) (rest : List (Option MediaBlock)), r.step = .tags o hop →
      all = good.map some ++ rest → good.map valid = es.map some → (∀ e ∈ es, c.floor ≤ e.run) →
      (r.lastRun :: es.map fun e => e.run).Pairwise (fun x y => x ≤ y) →
      let last := (es.getLast?.map fun e => e.run).getD r.lastRun
      let d := { c with taken := c.taken ++ ((List.range es.length).zip es).map fun x => (o + x.1, x.2) }
      let stops : Prop := ends fun d' => d' = { d with last := d'.last }
      let next := o + es.length
      let hopTo := (next / sh.track + 1) * sh.track
      (rest = [] → (next < sh.capacity → reads d next (min (sh.track - next % sh.track) (sh.capacity - next)) last false)
        ∧ (sh.capacity ≤ next → stops))
      ∧ (∀ tail, rest = none :: tail → stops)
      ∧ ∀ m tail, rest = some m :: tail → (∀ e, valid m = some e → e.run < c.floor ∨ e.run < last) →
        (hopTo < sh.capacity → reads d hopTo 1 last true) ∧ (sh.capacity ≤ hopTo → stops))
  ∧ ∀ d : Candidate, d.taken.Pairwise (fun x y => x.1 < y.1) →
    ((∀ x ∈ d.taken, x.2.kind = .none) → lastWritten d = if d.start = 0 then none else some (d.start - 1))
    ∧ ∀ o e, (o, e) ∈ d.taken → e.kind ≠ .none → (∀ x ∈ d.taken, x.2.kind ≠ .none → x.1 ≤ o) → lastWritten d = some o

/-- R28, R29, R38, R138: the bands step of the rebuild. A candidate with its footer used and an entry that is not NONE is FULL
with its footer, wp and done mark at the band's end; one without that holds data is FULL without a footer, wp and done mark at
the end of the track of its last written offset; one without data is EMPTY. Each candidate made FULL takes the next close
number in ascending band number, and has no owner and no fault. A CLEANING band that is no candidate is FULL with its fields
as they were. A band that a RETIRE record names is RETIRED; a candidate so named keeps wp and done mark and has no footer and
no close number, and the close counter steps back past it where its number was the last one given. Every live count is that of
the map, and a FULL band with nothing live is EMPTY; the EMPTY count follows, and the open wait list is empty. That a
candidate whose used footer holds NONE alone is EMPTY, and the order of several RETIRE records, are the model's choices (log
entry 17). -/
def Obligations.TheBandsStepSetsEveryBand : Prop :=
  ∀ (s : State) (cs : List Candidate), cs.Pairwise (fun c d => c.band < d.band) → cs.length < 2 ^ 32 →
    (∀ c ∈ cs, (s.band c.band).isSome) →
    let t := s.setBands cs
    let data := cs.filter fun c => c.last.isSome
    let named (b : Nat) : Prop := ∃ e ∈ s.recovery.journal, e.record.kind = .retire b
    let retires := s.recovery.journal.filterMap fun e => match e.record.kind with
      | .retire b => if cs.any (fun c => decide (c.band = b)) then some b else none
      | .trim _ _ _ => none
    t.map = s.map ∧ t.staging = s.staging ∧ t.ports = s.ports ∧ t.EmptyCounted ∧ t.bands.openWait = []
    ∧ (retires = [] → t.bands.closeCounter = s.bands.closeCounter + BitVec.ofNat 32 data.length)
    ∧ (∀ b, retires = [b] → t.bands.closeCounter = s.bands.closeCounter
        + BitVec.ofNat 32 (data.length - if (data.getLast?.map fun c => c.band) = some b then 1 else 0))
    ∧ ∀ b r, s.band b = some r →
      let live := liveIn s.map.table b
      let ends (x : BandRecord) : Prop :=
        t.band b = some (if x.state = .full ∧ live = 0 then emptyBand else { x with live := live })
      ((∀ c ∈ cs, c.band ≠ b) →
        (named b → ends { r with state := .retired })
        ∧ (¬named b → r.state = .cleaning → ends { r with state := .full })
        ∧ (¬named b → r.state ≠ .cleaning → ends r))
      ∧ ∀ c ∈ cs, c.band = b →
        (c.last = none → (named b → ends { emptyBand with state := .retired }) ∧ (¬named b → ends emptyBand))
        ∧ ∀ i o, data[i]? = some c → c.last = some o →
          let wp := if c.footerUsed then (s.shape b).size else (o / (s.shape b).track + 1) * (s.shape b).track
          let x : BandRecord := { r with
            state := .full, wp := wp, done := wp, owner := none, faults := 0, footer := c.footerUsed
            closeNumber := some (s.bands.closeCounter + BitVec.ofNat 32 i) }
          (¬named b → ends x) ∧ (named b → ends { x with state := .retired, footer := false, closeNumber := none })

/-- R41, R45, R46, R137: the items of a candidate are its entries that are not NONE, and the trims are the journal's TRIM
records with a run number of N0 or above. They are applied in ascending run number and, within one, ascending offset. A HOST
item maps its LBN at its place and leaves every other LBN where it was; a RELOCATED item does so where the map has its LBN at
its source and nothing otherwise; a TRIM removes its range; a PAD item changes nothing. An item whose insertion would need a
record when none is free is passed over. That the records are counted after the removal of the item's own LBN, and that a TRIM
is applied also where it splits a record with none free, is the model's reading (log entry 17). -/
def Obligations.TheReplayAppliesInOrder : Prop :=
  (∀ (c : Candidate) (x : ReplayItem), x ∈ candidateItems c ↔
    ∃ o e, (o, e) ∈ c.taken ∧ e.kind ≠ .none ∧ x = .place c.band o e)
  ∧ (∀ (n0 : Nat) (j : List JournalEntry) (x : ReplayItem), x ∈ journalItems n0 j ↔
    ∃ e ∈ j, ∃ first count run, e.record.kind = .trim first count run ∧ n0 ≤ run ∧ x = .trim first count run)
  ∧ (∀ (cap : Nat) (items : List ReplayItem) (t : List Extent), ∃ sorted : List ReplayItem, sorted.Perm items
    ∧ replayAll cap items t = sorted.foldl (replay cap) t
    ∧ sorted.Pairwise fun x y => (replayKey x).1 < (replayKey y).1
        ∨ (replayKey x).1 = (replayKey y).1 ∧ (replayKey x).2 ≤ (replayKey y).2)
  ∧ (∀ b o e first count run, replayKey (.place b o e) = (e.run, o) ∧ replayKey (.trim first count run) = (run, 0))
  ∧ ∀ (cap : Nat) (t : List Extent) (b o : Nat) (e : Entry),
    let places : Prop := ∀ x band offset, mapsTo (replay cap t (.place b o e)) x band offset
      = if x = e.lbn then decide (band = b ∧ offset = o) else mapsTo t x band offset
    let passed : Prop := replay cap t (.place b o e) = t
    let without := removeRange e.lbn e.lbn t
    let needs : Prop := without.length < (insertPiece { first := e.lbn, length := 1, band := b, offset := o } without).length
    let applies : Prop := (cap ≤ without.length → needs → passed) ∧ (without.length < cap ∨ ¬needs → places)
    (e.kind = .host → applies)
    ∧ (∀ sb so, e.kind = .relocated → e.source = some (sb, so) → if mapsTo t e.lbn sb so then applies else passed)
    ∧ (e.kind = .pad ∨ (e.kind = .relocated ∧ e.source = none) → passed)
    ∧ ∀ first count run, 1 ≤ count → ∀ x band offset, mapsTo (replay cap t (.trim first count run)) x band offset
      = (!(decide (first ≤ x) && decide (x < first + count)) && mapsTo t x band offset)

/-- R14, R15, R134, R139, R157, R169: the SYSTEM WRITEs of a CONFIG CLOSE. After each body block GOOD comes the next, then the
image's header, then system block 1, then block 0, each of the copies with the checked record and its check word; after block 0
the record comes into force and the part is READY with an empty map and every band EMPTY, and the CONFIG CLOSE finishes DONE with
the band count and SYSREQ. A write fault reissues the write up to twice; the third ends the close MEDIA ERROR with the block's
index, the draft EDITABLE with its contents. That the empty checkpoint goes to the first image slot, the order of its body's
writes, and that the block a MEDIA ERROR names is the first of the failed write are the model's choices (log entry 18). -/
def Obligations.ConfigCloseWritesAndEnds : Prop :=
  ∀ (s : State) (f : InFlight) (w : CloseWork) (k : Nat), s.seq.state = .transferring → s.seq.current = some f →
    f.op.kind = .systemWrite → f.op.task = .closeWrite → s.recovery.part = .unconfigured → s.recovery.close = some w →
    s.media.queue.length + s.media.entryWait.length < Config.queueLimit →
    let g := w.record
    let asks (i : Instr) (place tries : Nat) (written : List SysBlock → Prop) : Prop :=
      ∃ (u : State) (op : MediaOp) (x : CloseWork), exec i s = .next u.react ∧ u.media.queue = s.media.queue ++ [op]
        ∧ op.kind = .systemWrite ∧ op.task = .closeWrite ∧ op.place = .system place ∧ written op.system
        ∧ u.recovery.close = some x ∧ x.record = g ∧ x.port = w.port ∧ x.cmd = w.cmd ∧ x.reissues = tries ∧ u.geo = s.geo
    let copy (l : List SysBlock) : Prop := l = [.geometry g (checkWordOf g)]
    let head (l : List SysBlock) : Prop := ∃ h : ImageHeader, l = [.header h] ∧ h.sequence = 1 ∧ h.watermark = 0
      ∧ h.extents = 0 ∧ h.closeCounter = 0 ∧ h.firstUnreleased = 0 ∧ h.check = checkWordOf g
    let place : Nat := match w.step with
      | .awaitReady => 0
      | .image i _ => if i < imageBlocks g then imageBase g .first + i else imageBase g .first
      | .block1 => 1
      | .block0 => 0
    (∀ i n, w.step = .image i n →
      (i < imageBlocks g → i + n < imageBlocks g →
        asks .writeTransferGood (imageBase g .first + (i + n)) 0 fun l =>
          l.length = min (systemRemainder g (imageBase g .first + (i + n))) (imageBlocks g - (i + n)))
      ∧ (i < imageBlocks g → imageBlocks g ≤ i + n → asks .writeTransferGood (imageBase g .first) 0 head)
      ∧ (imageBlocks g ≤ i → asks .writeTransferGood 1 0 copy))
    ∧ (w.step = .block1 → asks .writeTransferGood 0 0 copy)
    ∧ (∀ c, w.step = .block0 → s.command w.port w.cmd = some c → (∀ p, ∀ d ∈ (s.port p).list, d.held = false) →
      ∃ u : State, exec .writeTransferGood s = .next u.react ∧ u.recovery.part = .ready ∧ u.recovery.close = none
        ∧ u.recovery.lastImage = some .first ∧ u.recovery.sequence = 1 ∧ u.geo.inForce = some g
        ∧ u.geo.checkWord = checkWordOf g ∧ u.geo.draft = [] ∧ u.geo.status = .editable
        ∧ u.bands.records = List.replicate (totalBands g) emptyBand ∧ u.map.table = [] ∧ u.map.freeCount = g.mapCap
        ∧ u.map.runCounter = 0 ∧ u.staging.size = g.slots
        ∧ ∃ d ∈ (u.port w.port).list, d.id = w.cmd ∧ d.status = some
            { status := .done, blocks := 0, result0 := BitVec.ofNat 64 (totalBands g),
              result1 := BitVec.ofNat 64 (systemRequired g) })
    ∧ (w.reissues < 2 → w.step ≠ .awaitReady → asks (.writeFault k) place (w.reissues + 1) fun _ => True)
    ∧ ∀ c, 2 ≤ w.reissues → s.command w.port w.cmd = some c → ∃ u : State, exec (.writeFault k) s = .next u.react
        ∧ u.recovery.close = none ∧ u.recovery.part = .unconfigured ∧ u.geo = { s.geo with status := .editable }
        ∧ u.media = s.media
        ∧ ∃ d ∈ (u.port w.port).list, d.id = w.cmd ∧ d.status = some
            { status := .mediaError, blocks := 0, result0 := BitVec.ofNat 64 place, result1 := 0 }

/-- R58, R60, R97, R125, R126, R129, R130, R131, R166: the watermark event comes with no WRITE RUN and no FOOTER WRITE in the
queue or in flight (where a run aborted in POSITIONING whose SEEK is unanswered is not counted, which is the model's choice, log
entry 14): N0 is the run counter's next number, the close count returns to 0, the write-phase flag is set, the band
table is fixed as it stands, and the first write of the image, in the slot that is not the last image, enters the queue or
waits for a place; otherwise, and in FAULTED, nothing changes (log entry 3). The SYSTEM WRITEs of a checkpoint. After body
blocks GOOD come the next of the image, at most one system track of them, and after the last the header, whose sequence is one
above the checkpoint sequence. A write fault reissues the write up to twice. The GOOD answer to the header, with no unwritten
record left, makes the written slot the last image with the next sequence and releases the records before the watermark; the
third fault leaves the last image, the sequence and the records as they are. Both apply and empty the pending-apply list and
clear the write-phase flag; the map says of every LBN what it said before, and each CHECKPOINT of the joined list finishes,
DONE or MEDIA ERROR, with the watermark and the sequence. At a failure a further checkpoint that is due, or one requested
since 65,536 records are unreleased, starts at once, and the next list is its joined list. -/
def Obligations.CheckpointFixesWritesAndEnds : Prop :=
  (∀ (s : State) (g : Geometry), s.geo.inForce = some g → s.recovery.checkpoint.state = .quiescing →
    (s.noRunWrites = false ∨ s.recovery.part = .faulted → exec .watermarkEvent s = .next s)
    ∧ (s.noRunWrites = true → s.recovery.part ≠ .faulted → 1 < imageBlocks g → ∃ t, exec .watermarkEvent s = .next t
        ∧ t = { s with map := { s.map with writePhase := true }, recovery := t.recovery, media := t.media }
        ∧ t.recovery.checkpoint.state = .writing ∧ t.recovery.checkpoint.watermark = s.map.runCounter
        ∧ t.recovery.checkpoint.bands = s.bands.records.map bandImage
        ∧ t.recovery.checkpoint.unreleased = s.recovery.nextSequence
        ∧ t.recovery.checkpoint.slot = (if s.recovery.lastImage = some .first then .second else .first)
        ∧ t.recovery.closeCount = 0 ∧ t.recovery.lastImage = s.recovery.lastImage ∧ t.recovery.journal = s.recovery.journal
        ∧ ∃ op : MediaOp, op.kind = .systemWrite ∧ op.place = .system (imageBase g t.recovery.checkpoint.slot + 1)
          ∧ op.task = .checkpointWrite ∧ op.count = t.recovery.checkpoint.count
          ∧ op.count = min (systemRemainder g (imageBase g t.recovery.checkpoint.slot + 1)) (imageBlocks g - 1)
          ∧ (s.queueRoom = true → t.media.queue = s.media.queue ++ [op] ∧ t.media.entryWait = s.media.entryWait)
          ∧ (s.queueRoom = false → t.media.queue = s.media.queue ∧ t.media.entryWait = s.media.entryWait ++ [.op op])))
  ∧ ∀ (s : State) (f : InFlight) (g : Geometry) (n : Nat), s.seq.state = .transferring → s.seq.current = some f →
    f.op.kind = .systemWrite → f.op.task = .checkpointWrite → s.recovery.part ≠ .faulted → s.geo.inForce = some g →
    let c := s.recovery.checkpoint
    let asks (i : Instr) (x : Checkpoint) : Prop := s.media.queue.length + s.media.entryWait.length < Config.queueLimit →
      ∃ (u : State) (op : MediaOp), exec i s = .next u.react ∧ u.media.queue = s.media.queue ++ [op]
        ∧ op.kind = .systemWrite ∧ op.task = .checkpointWrite
        ∧ (x.cursor < imageBlocks g → op.place = .system (imageBase g x.slot + x.cursor)
            ∧ op.count = min (systemRemainder g (imageBase g x.slot + x.cursor)) (imageBlocks g - x.cursor))
        ∧ (imageBlocks g ≤ x.cursor → op.place = .system (imageBase g x.slot) ∧ ∃ h : ImageHeader, op.system = [.header h]
            ∧ h.sequence = s.recovery.sequence + 1 ∧ h.check = s.geo.checkWord ∧ h.watermark = x.watermark
            ∧ h.extents = s.map.table.length ∧ h.closeCounter = x.closeCounter ∧ h.firstUnreleased = x.unreleased)
        ∧ u.recovery = { s.recovery with checkpoint := { x with count := op.count } } ∧ u.map = s.map ∧ u.bands = s.bands
    let ends (i : Instr) (st : Status) (sequence : Nat) (rest : State → Prop) : Prop := ∃ u : State, exec i s = .next u.react
      ∧ u.recovery.checkpoint.state = .idle ∧ u.recovery.sequence = sequence
      ∧ u.map = { s.map with table := s.map.current, pendingApply := [], promised := 0, writePhase := false, phaseWait := [] }
      ∧ (∀ x, u.lookup x = s.lookup x)
      ∧ (∀ p id d, (p, id) ∈ s.recovery.joined → s.command p id = some d → ∃ d ∈ (u.port p).list, d.id = id
          ∧ d.status = some { status := st, blocks := 0, result0 := BitVec.ofNat 64 c.watermark
                              result1 := BitVec.ofNat 64 sequence })
      ∧ u.bands = s.bands ∧ u.geo = s.geo ∧ u.seq.state = .idle ∧ rest u
    (c.cursor < imageBlocks g → asks .writeTransferGood { c with cursor := c.cursor + c.count, reissues := 0 })
    ∧ (c.reissues < 2 → asks (.writeFault n) { c with reissues := c.reissues + 1 })
    ∧ (imageBlocks g ≤ c.cursor → s.recovery.part ≠ .rebuilding → s.recovery.due = false → s.recovery.heldRetires = [] →
      (∀ e ∈ s.recovery.journal, e.written = true ∨ e.record.sequence < c.unreleased) →
      ends .writeTransferGood .done (s.recovery.sequence + 1) fun u => u.recovery.lastImage = some c.slot
        ∧ u.recovery.firstUnreleased = c.unreleased
        ∧ u.recovery.journal = s.recovery.journal.filter (fun e => decide (c.unreleased ≤ e.record.sequence)))
    ∧ (2 ≤ c.reissues → s.recovery.part ≠ .rebuilding → s.recovery.due = false →
      s.recovery.journal.length < Config.journalPlaces → ends (.writeFault n) .mediaError s.recovery.sequence fun u => u.recovery.lastImage = s.recovery.lastImage
        ∧ u.recovery.firstUnreleased = s.recovery.firstUnreleased ∧ u.recovery.journal = s.recovery.journal
        ∧ u.recovery.closeCount = s.recovery.closeCount)
    ∧ (2 ≤ c.reissues → s.recovery.part ≠ .rebuilding → s.recovery.due = true ∨ 65536 ≤ s.recovery.journal.length → ∃ u : State,
      exec (.writeFault n) s = .next u.react ∧ u.recovery.checkpoint.state ≠ .idle ∧ u.recovery.joined = s.recovery.next
        ∧ u.recovery.next = [] ∧ u.recovery.due = false ∧ u.recovery.sequence = s.recovery.sequence
        ∧ u.recovery.lastImage = s.recovery.lastImage ∧ (∀ x, u.lookup x = s.lookup x))

/-- R128, R130, R132, R133, R162, R163: an appended record takes the next journal sequence and is unwritten; the one that
brings the unreleased records to 65,536 requests a checkpoint, which starts, joins the one that is QUIESCING, or is due after
the one under way. The SYSTEM WRITEs of a journal write, outside a checkpoint's finish. After each block GOOD the next block
is written, with all the unreleased records it holds. After the last, the records taken are written, a FLUSH among the
requesters has its answer and a DURABLE TRIM finishes DONE; a further write that was asked for starts for the records that are
left, for the requesters that asked for it. A write fault reissues its block up to twice; the third ends the write with its
records unwritten, and the requesters are told of the failure. That the journal is written one block at a time, each with one
SYSTEM WRITE of one block, that a block written again holds nothing at the places of released records, and that the sequence counts
on above 2^64 - 1, are the model's choices (log entry 15). -/
def Obligations.RecordsAreAppendedAndJournalWritesEnd : Prop :=
  (∀ (s : State) (k : JournalKind), let u := s.appendRecord k
    let appended : Recovery := { s.recovery with
      journal := s.recovery.journal ++ [{ record := { sequence := s.recovery.nextSequence, kind := k }, written := false }]
      nextSequence := s.recovery.nextSequence + 1 }
    (s.recovery.journal.length + 1 < 65536 → u = { s with recovery := appended })
    ∧ (s.recovery.journal.length + 1 = 65536 →
      u.recovery.journal = appended.journal ∧ u.recovery.nextSequence = appended.nextSequence
      ∧ (s.recovery.checkpoint.state = .idle → u.recovery.checkpoint.state ≠ .idle ∧ u.recovery.joined = [])
      ∧ (s.recovery.checkpoint.state = .quiescing → u = { s with recovery := appended })
      ∧ (s.recovery.checkpoint.state = .writing ∨ s.recovery.checkpoint.state = .finishing →
          u = { s with recovery := { appended with due := true } })))
  ∧ ∀ (s : State) (f : InFlight) (g : Geometry) (k n : Nat), s.seq.state = .transferring → s.seq.current = some f →
    f.op.kind = .systemWrite → f.op.task = .journalWrite → s.recovery.part ≠ .faulted → s.geo.inForce = some g →
    s.media.queue.length + s.media.entryWait.length < Config.queueLimit →
    let w := s.recovery.journalWrite
    let asks (i : Instr) (block tries : Nat) (rest : List Nat) : Prop := ∃ (u : State) (op : MediaOp), exec i s = .next u.react
      ∧ u.media.queue = s.media.queue ++ [op] ∧ op.kind = .systemWrite ∧ op.task = .journalWrite
      ∧ op.place = .system (journalBase g + block)
      ∧ op.system = [.journal ((s.recovery.journal.map fun e => e.record).filter fun x =>
          decide (x.sequence % Config.journalPlaces / Config.journalPerBlock = block))]
      ∧ u.recovery = { s.recovery with journalWrite := { w with blocks := rest, reissues := tries } }
    let answered (u : State) (ok : Bool) : Prop := ∀ p id c, .command p id ∈ w.requesters → s.command p id = some c →
      (∀ total old, c.work = .flush total old → ∃ d ∈ (u.port p).list, d.id = id ∧ d.work = .flush total (some ok))
      ∧ (∀ applied, c.work = .trim applied → ∃ d ∈ (u.port p).list, d.id = id ∧ d.status = some {
          status := if ok then .done else .mediaError, blocks := c.record.count.toNat, result0 := 0, result1 := 0 })
    let left := (s.recovery.journal.filter fun e => !e.written && decide (e.record.sequence ∉ w.taken)).map fun e =>
      e.record.sequence
    let alone : Prop := s.recovery.checkpoint.state ≠ .finishing
    (∀ j rest, w.blocks = k :: j :: rest → asks .writeTransferGood j 0 (j :: rest))
    ∧ (w.blocks = [k] → alone → ∃ u : State, exec .writeTransferGood s = .next u.react ∧ answered u true
      ∧ u.recovery.journal = s.recovery.journal.map (fun e =>
          if e.record.sequence ∈ w.taken then { e with written := true } else e)
      ∧ (w.further = false → u.recovery.journalWrite.active = false ∧ u.media = s.media)
      ∧ (w.further = true → left ≠ [] → u.recovery.journalWrite.active = true ∧ u.recovery.journalWrite.taken = left
          ∧ u.recovery.journalWrite.requesters = w.furtherRequesters ∧ u.recovery.journalWrite.further = false))
    ∧ (∀ rest, w.blocks = k :: rest → w.reissues < 2 → asks (.writeFault n) k (w.reissues + 1) (k :: rest))
    ∧ (2 ≤ w.reissues → w.further = false → alone → ∃ u : State, exec (.writeFault n) s = .next u.react ∧ answered u false
      ∧ u.recovery.journal = s.recovery.journal ∧ u.recovery.journalWrite.active = false ∧ u.media = s.media)

/-! ### The chain walk and the write-back (chapter 8) -/

/-- R60, R105, R128, R131, R132, R133, R139, R157: the end of a checkpoint. At the GOOD answer to its header with records left
unwritten, RETIRE records held apart counted, which are appended as far as places allow, the image is the last one, the
records before the watermark are released, the pending-apply list is applied and the write-phase flag is cleared, and the
checkpoint is in FINISHING: a journal write starts for the records left, or is a further one. The journal write that ends with
them written, or that the finish asked for, whatever its outcome, ends the checkpoint with success; any other leaves it
waiting. At the end the joined CHECKPOINTs finish DONE, and a further checkpoint that is due starts; a journal write that
succeeded has a held release tested; the requesters of the journal write have its answer, and its further write starts for
those that asked for it. The end of the rebuild's own checkpoint, with success or failure, makes the part READY: the Cleaner's
retired list holds each RETIRED band with live blocks as AWAITING and its mode is that of the state, and each held command is
put to the tests of section 9.2 (here with no other TAKEOVER held). That the failure of a write begun before the finish asked
leaves the checkpoint waiting is the model's reading (log entry 15), and that Port A's held commands come first is its choice
(log entry 7). -/
def Obligations.TheFinishWaitsAndTheRebuildEnds : Prop :=
  (∀ (s : State) (f : InFlight) (g : Geometry), s.seq.state = .transferring → s.seq.current = some f →
    f.op.kind = .systemWrite → f.op.task = .checkpointWrite → s.recovery.part ≠ .faulted → s.geo.inForce = some g →
    imageBlocks g ≤ s.recovery.checkpoint.cursor →
    let c := s.recovery.checkpoint
    let w := s.recovery.journalWrite
    let kept := s.recovery.journal.filter fun e => decide (c.unreleased ≤ e.record.sequence)
    let n := min s.recovery.heldRetires.length (65536 - kept.length)
    let journal := kept ++ ((countFrom s.recovery.nextSequence n).zip s.recovery.heldRetires).map fun x =>
      { record := { sequence := x.1, kind := .retire x.2 }, written := false }
    let left := (journal.filter fun e => !e.written).map fun e => e.record.sequence
    left ≠ [] → ∃ u : State, exec .writeTransferGood s = .next u.react
      ∧ u.recovery.checkpoint.state = .finishing ∧ u.recovery.checkpoint.finishUpTo = s.recovery.nextSequence + n
      ∧ u.recovery.lastImage = some c.slot ∧ u.recovery.sequence = s.recovery.sequence + 1
      ∧ u.recovery.firstUnreleased = c.unreleased ∧ u.recovery.journal = journal
      ∧ u.recovery.heldRetires = s.recovery.heldRetires.drop n ∧ u.recovery.nextSequence = s.recovery.nextSequence + n
      ∧ u.recovery.due = (s.recovery.due || decide (0 < n ∧ kept.length + n = 65536))
      ∧ u.recovery.joined = s.recovery.joined ∧ u.recovery.part = s.recovery.part
      ∧ u.map = { s.map with table := s.map.current, pendingApply := [], promised := 0, writePhase := false, phaseWait := [] }
      ∧ u.ports = s.ports ∧ u.bands = s.bands ∧ u.geo = s.geo ∧ u.seq.state = .idle ∧ u.seq.current = none
      ∧ (w.active = true → u.media = s.media ∧ u.recovery.journalWrite = { w with
          further := true, furtherRequesters := w.furtherRequesters ++ [.checkpoint] })
      ∧ (w.active = false → u.recovery.journalWrite.active = true ∧ u.recovery.journalWrite.taken = left
          ∧ u.recovery.journalWrite.requesters = [.checkpoint] ∧ u.recovery.journalWrite.further = false
          ∧ (s.media.queue.length + s.media.entryWait.length < Config.queueLimit → ∃ op,
              u.media.queue = s.media.queue ++ [op] ∧ op.kind = .systemWrite ∧ op.task = .journalWrite
              ∧ ∀ q rest, left = q :: rest →
                op.place = .system (journalBase g + q % Config.journalPlaces / Config.journalPerBlock))))
  ∧ (∀ (s : State) (f : InFlight) (i : Instr) (ok : Bool), s.seq.state = .transferring → s.seq.current = some f →
    f.op.kind = .systemWrite → f.op.task = .journalWrite → s.recovery.part = .ready →
    s.recovery.checkpoint.state = .finishing →
    let c := s.recovery.checkpoint
    let w := s.recovery.journalWrite
    (∃ k, ok = true ∧ i = .writeTransferGood ∧ w.blocks = [k]) ∨ (∃ n, ok = false ∧ i = .writeFault n ∧ 2 ≤ w.reissues) →
    let journal := s.recovery.journal.map fun e =>
      if ok = true ∧ e.record.sequence ∈ w.taken then { e with written := true } else e
    let left := (journal.filter fun e => !e.written).map fun e => e.record.sequence
    let ended : Prop := .checkpoint ∈ w.requesters ∨ ∀ q ∈ left, c.finishUpTo ≤ q
    ∃ u : State, exec i s = .next u.react ∧ u.recovery.journal = journal ∧ u.seq.state = .idle
      ∧ u.bands = { s.bands with retest := s.bands.retest || (ok && s.bands.release.isSome) }
      ∧ (ended → (∀ p id d, (p, id) ∈ s.recovery.joined → s.command p id = some d → d.work = .checkpoint →
            ∃ e ∈ (u.port p).list, e.id = id ∧ e.status = some { status := .done, blocks := 0,
                                                                 result0 := BitVec.ofNat 64 c.watermark,
                                                                 result1 := BitVec.ofNat 64 s.recovery.sequence })
          ∧ (s.recovery.due = false → u.recovery.checkpoint.state = .idle ∧ u.recovery.joined = [])
          ∧ (s.recovery.due = true → u.recovery.checkpoint.state ≠ .idle ∧ u.recovery.joined = s.recovery.next
              ∧ u.recovery.next = [] ∧ u.recovery.due = false))
      ∧ (¬ended → u.recovery.checkpoint = c ∧ u.recovery.joined = s.recovery.joined ∧ u.recovery.due = s.recovery.due)
      ∧ (∀ p id d, .command p id ∈ w.requesters → (p, id) ∉ s.recovery.joined → s.command p id = some d →
          (∀ total old, d.work = .flush total old → .command p id ∉ w.furtherRequesters →
            ∃ e ∈ (u.port p).list, e.id = id ∧ e.work = .flush total (some ok))
          ∧ (∀ applied, d.work = .trim applied → ∃ e ∈ (u.port p).list, e.id = id ∧ e.status = some
              { status := if ok then .done else .mediaError, blocks := d.record.count.toNat, result0 := 0, result1 := 0 }))
      ∧ (w.further = false ∨ left = [] → u.recovery.journalWrite.active = false)
      ∧ (w.further = true → left ≠ [] → u.recovery.journalWrite.active = true ∧ u.recovery.journalWrite.taken = left
          ∧ u.recovery.journalWrite.further = false
          ∧ (ended → u.recovery.journalWrite.requesters = w.furtherRequesters.filter fun x => decide (x ≠ .checkpoint))
          ∧ (¬ended → u.recovery.journalWrite.requesters = w.furtherRequesters)))
  ∧ ∀ (s : State) (f : InFlight) (g : Geometry) (i : Instr), s.seq.state = .transferring → s.seq.current = some f →
    f.op.kind = .systemWrite → s.recovery.part = .rebuilding → s.geo.inForce = some g →
    let c := s.recovery.checkpoint
    let w := s.recovery.journalWrite
    (f.op.task = .checkpointWrite ∧ i = .writeTransferGood ∧ imageBlocks g ≤ c.cursor ∧ s.recovery.heldRetires = []
          ∧ ∀ e ∈ s.recovery.journal, e.written = true ∨ e.record.sequence < c.unreleased)
      ∨ (f.op.task = .checkpointWrite ∧ (∃ n, i = .writeFault n) ∧ 2 ≤ c.reissues)
      ∨ (f.op.task = .journalWrite ∧ c.state = .finishing ∧ .checkpoint ∈ w.requesters
          ∧ ((i = .writeTransferGood ∧ ∃ k, w.blocks = [k]) ∨ ((∃ n, i = .writeFault n) ∧ 2 ≤ w.reissues))) →
    ∃ u : State, exec i s = .next u.react ∧ u.recovery.part = .ready ∧ u.recovery.rebuild = none ∧ u.geo = s.geo
      ∧ u.cleaner.retired.Pairwise (fun x y => x.1 < y.1)
      ∧ (∀ b mark, (b, mark) ∈ u.cleaner.retired ↔ mark = .awaiting ∧ ∃ q, s.band b = some q ∧ q.state = .retired ∧ 0 < q.live)
      ∧ ((∀ p, ∀ d ∈ (s.port p).list, d.held = false) → u.cleaner.mode = u.modeNow
          ∧ u.bands = { s.bands with retest :=
              s.bands.retest || (decide (f.op.task = .journalWrite ∧ i = .writeTransferGood) && s.bands.release.isSome) }
          ∧ ∀ x, u.lookup x = s.lookup x)
      ∧ ∀ p d, d ∈ (s.port p).list → d.held = true → d.status = none → d.work = .none → (p, d.id) ∉ s.recovery.joined →
          (∀ e ∈ (s.port p).list, e.id = d.id → e = d) →
          (∀ q, ∀ e ∈ (s.port q).list, e.held = true → e.opcode = 8 → q = p ∧ e = d) →
          let k := d.opcode
          let r := d.record
          ∃ e ∈ (u.port p).list, e.id = d.id ∧ e.record = r ∧ e.opcode = k ∧ e.held = false
            ∧ (let ends (st : Status) : Prop := e.status = some { status := st, blocks := 0, result0 := 0, result1 := 0 }
              if 10 < k then ends .badCommand
              else if k = 9 ∨ k = 10 then ends .refusedState
              else if formatOk k s.limits.1 r = false then ends .badCommand
              else if k = 2 ∧ s.streamValid p r = false then ends .streamInvalid
              else if rangeExceeded k s.limits.1 s.limits.2 r = true then ends .range
              else k = 0 → ends .done)

/-- R146, R147, R148, R150: the answer to a record read in RUNNING. OWN clear suspends the port at the record with its poll
timer; CONT set is a chain format error; a record of up to 2 pieces is taken as the row of its opcode takes it; one of more
pieces sends the read of its continuation, or is a chain format error where its next address is 0 or unaligned. An answer to
the read of a continuation without CONT is a chain format error, one with pieces still to come sends the read of the next, and
the last continuation takes the command. A poll's answer of 0 leaves the port suspended with its timer started; a next record
that is found makes it RUNNING, starts the record read, and marks the command as not having ended the chain; an unaligned next
address is a chain format error, and that the command then still ends the chain is the model's choice (log entry 19). The poll
timer's expiry and RESUME send one poll of a suspended port; RESUME changes nothing in the other states. A record poll's
answer with OWN clear starts the timer again; with OWN set it is examined as a record read in RUNNING. A port whose link is
DOWN sends nothing (R142), and one that is SUSPENDED(END) with its position moved on polls nothing (log entry 19). -/
def Obligations.RecordReadsAndPolls : Prop :=
  (∀ (s : State) (p : Port) (a : Address) (w : RecordWords), takingAt (s.port p) = some a →
    let e := s.port p
    let halted : PortEngine :=
      { e with walk := .idle, pollTimer := none, process := .halted, cause := .chainFormat
               flags := { e.flags with chainFormat := true } }
    (e.walk = .record →
      (ownBit (recordFlags w) = false → exec (.recordReadAnswer p w) s = .next (s.setPort p
        { e with walk := .idle, process := .suspendedNotOwned
                 pollTimer := if e.autopoll = 0 then none else some e.autopoll }))
      ∧ (ownBit (recordFlags w) = true → contBit (recordFlags w) = true →
          exec (.recordReadAnswer p w) s = .next (s.setPort p halted))
      ∧ (ownBit (recordFlags w) = true → contBit (recordFlags w) = false →
          (∀ i, recordPieces w ≤ 2 →
            commandRow (recordOpcode w) p (commandOf w ([w.w3, w.w4].take (recordPieces w)) a w.w0) = some i →
            exec (.recordReadAnswer p w) s = exec i s)
          ∧ (2 < recordPieces w → w.w0 ≠ 0 → w.w0.toNat % 64 = 0 →
              exec (.recordReadAnswer p w) s = .next (s.setPort p { e with walk := .continuation w [w.w3, w.w4] w.w0 }))
          ∧ (2 < recordPieces w → w.w0 = 0 ∨ w.w0.toNat % 64 ≠ 0 →
              exec (.recordReadAnswer p w) s = .next (s.setPort p halted))))
    ∧ ∀ head pieces at', e.walk = .continuation head pieces at' →
      (contBit (recordFlags w) = false → exec (.continuationReadAnswer p w) s = .next (s.setPort p halted))
      ∧ (contBit (recordFlags w) = true → pieces.length + 6 < recordPieces head → w.w0 ≠ 0 → w.w0.toNat % 64 = 0 →
          exec (.continuationReadAnswer p w) s = .next (s.setPort p { e with
            walk := .continuation head (pieces ++ [w.w2, w.w3, w.w4, w.w5, w.w6, w.w7]) w.w0 }))
      ∧ (contBit (recordFlags w) = true → recordPieces head ≤ pieces.length + 6 → ∀ i,
          commandRow (recordOpcode head) p
            (commandOf head ((pieces ++ [w.w2, w.w3, w.w4, w.w5, w.w6, w.w7]).take (recordPieces head)) at' w.w0) = some i →
          exec (.continuationReadAnswer p w) s = exec i s))
  ∧ ∀ (s : State) (p : Port), let e := s.port p
    (∀ l next, e.walk = .pollNext → e.position = .afterRecord l →
      (next = 0 → exec (.pollNextReadAnswer p next) s = .next (s.setPort p
        { e with walk := .idle, process := .suspendedEnd, pollTimer := if e.autopoll = 0 then none else some e.autopoll }))
      ∧ (next ≠ 0 → next.toNat % 64 = 0 → e.stopRequested = false → e.teardown = false → e.linkUp = true →
          e.list.length < 32 → exec (.pollNextReadAnswer p next) s = .next (s.setPort p
            { e with walk := .record, process := .running, pollTimer := none, position := .atRecord next
                     list := e.list.map fun c => if c.record.last = l then { c with endsChain := false } else c }))
      ∧ (next.toNat % 64 ≠ 0 → exec (.pollNextReadAnswer p next) s = .next (s.setPort p
          { e with walk := .idle, pollTimer := none, process := .halted, cause := .chainFormat
                   flags := { e.flags with chainFormat := true } })))
    ∧ (∀ c, c = .resume p ∨ (c = .pollTimerExpiry p ∧ e.pollTimer.isSome) → e.walk = .idle → e.stopRequested = false →
        e.teardown = false → e.linkUp = true →
        (∀ l, e.process = .suspendedEnd → e.position = .afterRecord l →
          exec c s = .next (s.setPort p { e with walk := .pollNext, pollTimer := none }))
        ∧ (∀ a, e.process = .suspendedNotOwned → e.position = .atRecord a →
          exec c s = .next (s.setPort p { e with walk := .pollRecord, pollTimer := none })))
    ∧ (e.process = .stopped ∨ e.process = .running ∨ e.process = .halted ∨ e.walk ≠ .idle ∨ e.linkUp = false
        ∨ (∃ a, e.process = .suspendedEnd ∧ e.position = .atRecord a) → exec (.resume p) s = .next s)
    ∧ ∀ a w, e.walk = .pollRecord → e.position = .atRecord a →
      (ownBit (recordFlags w) = false → exec (.recordPollAnswer p w) s = .next (s.setPort p
        { e with walk := .idle, process := .suspendedNotOwned
                 pollTimer := if e.autopoll = 0 then none else some e.autopoll }))
      ∧ (ownBit (recordFlags w) = true → e.stopRequested = false → e.teardown = false → e.list.length < 32 →
          exec (.recordPollAnswer p w) s
            = exec (.recordReadAnswer p w) (s.setPort p { e with process := .running, walk := .record }))

/-- R142, R144, R150, R151, R152, R153: the status word holds the status code of section 9.1 in its low byte, three zero
bytes, and blocks done in its upper half. The FINISHED head of the list begins its write-back, while the link is UP, with the
read of its next address where it ended the chain and the position is still after it, and otherwise with the status write, EOQ
set for a chain that ended. At the next read's answer EOQ is set for 0 and clear for a record, to which the position moves.
Where the position was replaced meanwhile the answer is not used (log entry 19). The status write's answer sends the flags: as
read, but OWN and CONT clear, EOQ as decided, TORN set for a torn command. At the write-back event the command leaves the
list, the write-back count rises by 1 modulo 64, DONE MARK is the address of its first record with the new count, and the
port's Notice Unit is told; a port with stop requested or a teardown in progress becomes STOPPED with its last command, its
position kept. The other port does not change. -/
def Obligations.WriteBacksMoveDoneMark : Prop :=
  (∀ d : Completion, let w := statusWordOf d
    w.toNat % 2 ^ 32 = (match d.status with
      | .done => 0
      | .range => 1
      | .badCommand => 2
      | .streamInvalid => 3
      | .mediaError => 4
      | .mapExhausted => 5
      | .noSpace => 6
      | .notReady => 7
      | .notConfigured => 8
      | .refusedState => 9
      | .geometryInvalid => 10
      | .torn => 11
      | .partFault => 12)
    ∧ w.toNat / 2 ^ 32 = d.blocks % 2 ^ 32)
  ∧ (∀ (s : State) (p : Port) (c : Command) (rest : List Command) (d : Completion), (s.port p).list = c :: rest →
    c.status = some d → let e := s.port p
    let status (eoq : Bool) : WriteBack := .statusWrite eoq (statusWordOf d) d.result0 d.result1
    (e.writeBack = none → e.linkUp = false → exec (.writeBackStart p) s = .next s)
    ∧ (e.writeBack = none → e.linkUp = true → exec (.writeBackStart p) s = .next (s.setPort p { e with
        writeBack := some (if c.endsChain ∧ e.position = .afterRecord c.record.last then .nextRead else status c.endsChain) }))
    ∧ (e.writeBack = some .nextRead → ∀ next, ∃ f, exec (.writeBackNextReadAnswer p next) s = .next (s.setPort p f)
        ∧ f.doneMark = e.doneMark
        ∧ (e.position = .afterRecord c.record.last → next = 0 → f = { e with writeBack := some (status true) })
        ∧ (e.position = .afterRecord c.record.last → next ≠ 0 → next.toNat % 64 = 0 →
            f.writeBack = some (status false) ∧ f.position = .atRecord next
            ∧ (e.process = .suspendedEnd → e.stopRequested = false → f.process = .running)
            ∧ (e.process ≠ .suspendedEnd ∨ e.stopRequested = true → f.process = e.process))
        ∧ (e.position = .afterRecord c.record.last → next.toNat % 64 ≠ 0 →
            f.writeBack = some (status true) ∧ f.process = .halted ∧ f.cause = .chainFormat ∧ f.flags.chainFormat = true
            ∧ f.position = e.position)
        ∧ (e.position ≠ .afterRecord c.record.last → f = { e with writeBack := some (status c.endsChain) }))
    ∧ ∀ eoq a b r, e.writeBack = some (.statusWrite eoq a b r) →
        ∃ flags : Byte, exec (.writeBackStatusAnswer p) s = .next (s.setPort p { e with writeBack := some (.flagsWrite eoq flags) })
          ∧ flags.getLsbD 0 = false ∧ flags.getLsbD 1 = false ∧ flags.getLsbD 2 = eoq
          ∧ flags.getLsbD 3 = (decide (d.status = .torn) || c.record.flags.getLsbD 3)
          ∧ ∀ k, 4 ≤ k → flags.getLsbD k = c.record.flags.getLsbD k)
  ∧ ∀ (s : State) (p : Port) (c : Command) (rest : List Command) (eoq : Bool) (b : Byte), (s.port p).list = c :: rest →
    (s.port p).writeBack = some (.flagsWrite eoq b) → let e := s.port p
    ∃ t, exec (.writeBackEvent p) s = .next t
      ∧ t = { s with ports := s.ports.set p (t.port p), notices := s.notices.set p (noticeWriteBack (s.notice p)) }
      ∧ (t.port p).list = rest ∧ (t.port p).writeBack = none ∧ (t.port p).writeBacks = e.writeBacks + 1
      ∧ (t.port p).doneMark = (c.first &&& ~~~0x3F#64) ||| (e.writeBacks + 1).setWidth 64
      ∧ (t.port p).position = e.position ∧ (t.port p).flags = e.flags ∧ (t.port p).ackMark = e.ackMark
      ∧ (rest = [] → e.stopRequested = true ∨ e.teardown = true →
          (t.port p).process = .stopped ∧ (t.port p).stopRequested = false ∧ (t.port p).teardown = false
            ∧ (t.port p).cause = .none)
      ∧ (rest ≠ [] ∨ (e.stopRequested = false ∧ e.teardown = false) →
          (t.port p).process = e.process ∧ (t.port p).stopRequested = e.stopRequested ∧ (t.port p).teardown = e.teardown)

/-! ### Notices and port words (chapters 8 and 11) -/

/-- R182: an ACK MARK write stores its value. Equal to DONE MARK, it clears the released flag, returns both machines to WAITING
with tally 0 and the timer stopped, and puts the staged pacing in force. Unequal, it changes nothing in the Notice Unit, and the
line of a released unit is asserted. After a write-back event DONE MARK differs from the value before. A word write reaches the
part only while the port's link is UP (R142). -/
def Obligations.AckMarkEndsThePace : Prop :=
  ∀ (s : State) (p : Port) (v : Word64),
    ((s.port p).linkUp = true → ∃ t, exec (.ackMark p v) s = .next t
      ∧ t = { s with ports := s.ports.set p { s.port p with ackMark := v }, notices := t.notices }
      ∧ t.notice (otherPort p) = s.notice (otherPort p)
      ∧ (v = (s.port p).doneMark → t.notice p = { s.notice p with
          counting := false, tally := 0, delay := false, timer := false, released := false
          pacingCount := (s.notice p).stagedCount, pacingTime := (s.notice p).stagedTime })
      ∧ (v ≠ (s.port p).doneMark → t.notice p = s.notice p ∧ ((s.notice p).released = true → t.noticeLine p = true)))
    ∧ (s.DoneMarked → writeBackDue (s.port p) = true → ∀ t, exec (.writeBackEvent p) s = .next t →
        (t.port p).doneMark ≠ (s.port p).doneMark)

/-- R143, R181, R183, R184: the first write-back of a pace starts the machines whose settings in force are above 0 and
releases where both are 0 or the count is 1; a later one raises the tally of a COUNTING machine and releases at the count; a
released unit is not touched. The DELAY timer's expiry releases. SETTINGS sets the mask at once and stages the pacing, which
is in force at once while no pace runs; the autopoll field is stored as 15 at most. The notice line is up exactly while the
unit is released with ACK MARK other than DONE MARK, or a latched flag of the port has its bit in the mask. -/
def Obligations.PacingAndSettings : Prop :=
  (∀ n : NoticeUnit, n.released = true → noticeWriteBack n = n)
  ∧ (∀ n : NoticeUnit, n.released = false → n.counting = false → n.delay = false →
      noticeWriteBack n =
        let now : Bool := decide ((n.pacingCount = 0 ∧ n.pacingTime = 0) ∨ n.pacingCount = 1)
        { n with counting := decide (0 < n.pacingCount), tally := if 0 < n.pacingCount then 1 else n.tally
                 delay := decide (0 < n.pacingTime), timer := decide (0 < n.pacingTime) && !now, released := now })
  ∧ (∀ n : NoticeUnit, n.released = false → n.counting = true ∨ n.delay = true →
      (n.counting = false → noticeWriteBack n = n)
      ∧ (n.counting = true → n.tally + 1 = n.pacingCount →
          noticeWriteBack n = { n with tally := n.tally + 1, released := true, timer := false })
      ∧ (n.counting = true → n.tally + 1 ≠ n.pacingCount → noticeWriteBack n = { n with tally := n.tally + 1 }))
  ∧ (∀ (s : State) (p : Port), let n := s.notice p
    let f := (s.port p).flags
    s.noticeLine p = true ↔ (n.released = true ∧ (s.port p).ackMark ≠ (s.port p).doneMark)
      ∨ (f.linkFault = true ∧ n.mask.getLsbD 0 = true) ∨ (f.headWhileRunning = true ∧ n.mask.getLsbD 1 = true)
      ∨ (f.chainFormat = true ∧ n.mask.getLsbD 2 = true) ∨ (s.seq.writeHold = true ∧ n.mask.getLsbD 3 = true)
      ∨ (f.partFault = true ∧ n.mask.getLsbD 4 = true) ∨ (f.takenOver = true ∧ n.mask.getLsbD 5 = true))
  ∧ ∀ (s : State) (p : Port) (v : Word64), let n := s.notice p
    exec (.pacingTimerExpiry p) s = .next (s.setNotice p (if n.timer then { n with released := true, timer := false } else n))
    ∧ ((s.port p).linkUp = true → exec (.settings p v) s = .next (
        (s.setPort p { s.port p with autopoll := min (field v 16 8) 15 }).setNotice p
        (if n.released = false ∧ n.counting = false ∧ n.delay = false then
          { n with mask := v.extractLsb' 24 6, stagedCount := field v 0 8, stagedTime := field v 8 8
                   pacingCount := field v 0 8, pacingTime := field v 8 8 }
        else { n with mask := v.extractLsb' 24 6, stagedCount := field v 0 8, stagedTime := field v 8 8 })))

/-- R142, R143, R147, R149, R150, R155, R177: the effects of CHAIN HEAD, START and STOP by process state, of a START that takes
the port's group back, of a START that clears stop requested, after which the walk or the poll timer goes on where no teardown is in
progress (log entry 19), and of CLEAR FLAGS by its mask, while the port's link is UP; while it is DOWN no word write changes
anything, and neither do the accesses that the manual says change nothing. LINK_UP makes the link UP and changes nothing else. -/
def Obligations.PortWordWrites : Prop :=
  ∀ (s : State) (p : Port) (v : Word64), let e := s.port p
    (e.linkUp = false → ∀ (mask : BitVec 6), ∀ c ∈ [Instr.chainHead p v, .resume p, .ackMark p v, .settings p v, .start p, .stop p,
      .teardown p, .resetPort p, .releaseWriteHold p, .clearFlags p mask], exec c s = .next s)
    ∧ (∀ x, exec (.portWordWriteIgnored p x) s = .next s)
    ∧ exec (.linkUp p) s = .next (s.setPort p { e with linkUp := true })
    ∧ (e.linkUp = true →
      (v.toNat % 64 = 0 →
        (e.process = .stopped → exec (.chainHead p v) s
          = .next (s.setPort p { e with position := if v = 0 then .none else .atRecord v }))
        ∧ (e.process = .suspendedEnd ∨ e.process = .suspendedNotOwned → v ≠ 0 → e.stopRequested = false → e.teardown = false →
            e.list.length < 32 → exec (.chainHead p v) s = .next (s.setPort p
              { e with process := .running, position := .atRecord v, walk := .record, pollTimer := none
                       late := e.late || decide (e.walk ≠ .idle) }))
        ∧ (e.process = .suspendedEnd ∨ e.process = .suspendedNotOwned → v = 0 →
            exec (.chainHead p v) s = .next (s.setPort p { e with flags := { e.flags with chainFormat := true } }))
        ∧ (e.process = .running ∨ e.process = .halted →
            exec (.chainHead p v) s = .next (s.setPort p { e with flags := { e.flags with headWhileRunning := true } })))
      ∧ (v.toNat % 64 ≠ 0 → ∃ f, exec (.chainHead p v) s = .next (s.setPort p f) ∧ f.flags.chainFormat = true
          ∧ f = { e with flags := f.flags })
      ∧ (e.process = .stopped → e.position = .none → exec (.start p) s = .next s)
      ∧ (e.process ≠ .stopped → e.stopRequested = false ∨ e.process = .halted → exec (.start p) s = .next s)
      ∧ (e.process ≠ .stopped → e.process ≠ .halted → e.stopRequested = true →
          let goesOn (f : PortEngine) : Prop := exec (.start p) s = .next (s.setPort p { f with stopRequested := false })
          (e.teardown = true ∨ (e.process = .running ∧ e.position = .none) → goesOn e)
          ∧ (e.teardown = false → e.process ≠ .running →
              goesOn { e with pollTimer := if e.autopoll = 0 then none else some e.autopoll })
          ∧ (∀ l, e.teardown = false → e.process = .running → e.position = .afterRecord l → goesOn { e with walk := .pollNext })
          ∧ ∀ a, e.teardown = false → e.process = .running → e.position = .atRecord a → e.walk = .idle → goesOn
              (if e.list.length < 32 then { e with walk := .record } else e))
      ∧ (∀ a, e.process = .stopped → e.position = .atRecord a → s.staging.owners.get p = p → e.walk = .idle →
          e.stopRequested = false → e.teardown = false → e.list.length < 32 →
          exec (.start p) s = .next (s.setPort p { e with process := .running, walk := .record }))
      ∧ (∀ l, e.process = .stopped → e.position = .afterRecord l → s.staging.owners.get p = p →
          exec (.start p) s = .next (s.setPort p { e with process := .running, walk := .pollNext }))
      ∧ (e.process = .stopped → e.position ≠ .none → s.staging.owners.get p = otherPort p → ∃ u : State,
          exec (.start p) s = .next u.react ∧ u.staging.owners = s.staging.owners.set p p ∧ (u.port p).process = .running
          ∧ ∀ c i j k, (s.port (otherPort p)).list = [c] → c.status = none → c.work = .write i j k → j < c.record.count.toNat →
              c.opcode = 2 → streamGroup (writeStream (otherPort p) c.record) = some p →
              (u.port (otherPort p)).list = [{ c with
                status := some { status := .streamInvalid, blocks := j, result0 := 0, result1 := 0 }, held := false
                work := .none }])
      ∧ (e.process = .stopped → exec (.stop p) s = .next s)
      ∧ (e.process ≠ .stopped → e.list ≠ [] → exec (.stop p) s
          = .next (s.setPort p { e with stopRequested := true, walk := .idle, pollTimer := none
                                        late := e.late || decide (e.walk ≠ .idle) }))
      ∧ (e.process ≠ .stopped → e.list = [] → ∃ f, exec (.stop p) s = .next (s.setPort p f) ∧ f.process = .stopped
          ∧ f.cause = .none ∧ f.stopRequested = false ∧ f.position = e.position ∧ f.flags = e.flags)
      ∧ (∀ mask : BitVec 6, ∃ f, exec (.clearFlags p mask) s = .next (s.setPort p { e with flags := f })
          ∧ flagBits f s.seq.writeHold = flagBits e.flags s.seq.writeHold &&& ~~~(mask &&& ~~~0x08#6)))

/-- R141, R142, R153, R154, R171, R178, R180: a link fault of an outstanding transaction, or a link loss, latches LINK FAULT,
empties the list without write-back and halts a port that is not STOPPED, and one with stop requested becomes STOPPED (log
entry 20); a loss makes the link DOWN, and with nothing outstanding there is no fault. TEARDOWN tears the RUNNING commands and
stops the port once its list is empty; RESET PORT gives the port and its Notice Unit their reset values, but for the link's
own state and the model's command numbers, which go on (log entry 31). The blocks done of a torn command are the blocks pushed
of a READ, the blocks accepted of a WRITE, the count of an applied TRIM, the entries pushed of a BAND REPORT, and 0 of any
other. DONE MARK, the map's contents, the geometry, the group owners, WRITE HOLD and the other port stay, but that RESET PORT
sets its own DONE MARK to 0. -/
def Obligations.LinkFaultTeardownAndResetPort : Prop :=
  ∀ (s : State) (p : Port), let e := s.port p
    let rest (u : State) : Prop := u.port (otherPort p) = s.port (otherPort p) ∧ u.geo = s.geo ∧ u.map.table = s.map.table
      ∧ u.map.pendingApply = s.map.pendingApply ∧ u.staging.owners = s.staging.owners ∧ u.seq.writeHold = s.seq.writeHold
      ∧ u.notice (otherPort p) = s.notice (otherPort p) ∧ u.recovery.part = s.recovery.part
    (s.linkBusy p = false → exec (.linkFault p) s = .next s)
    ∧ (∀ c cause up, (c = .linkFault p ∧ cause = HaltCause.linkFault ∧ s.linkBusy p = true ∧ up = e.linkUp)
        ∨ (c = .linkLoss p ∧ cause = HaltCause.linkLost ∧ up = false) →
      ∃ u : State, exec c s = .next u.react ∧ rest u ∧ (u.port p).list = [] ∧ (u.port p).flags.linkFault = true
        ∧ (u.port p).doneMark = e.doneMark ∧ (u.port p).position = e.position ∧ (u.port p).pushes = []
        ∧ (u.port p).linkUp = up ∧ u.linkBusy p = false
        ∧ (e.process = .stopped → (u.port p).process = .stopped)
        ∧ (e.process ≠ .stopped → e.stopRequested = true →
            (u.port p).process = .stopped ∧ (u.port p).stopRequested = false ∧ (u.port p).cause = .none)
        ∧ (e.process ≠ .stopped → e.stopRequested = false →
            (u.port p).process = .halted ∧ (u.port p).cause = cause ∧ (u.port p).teardown = false))
    ∧ (e.process = .stopped ∨ e.teardown = true → exec (.teardown p) s = .next s)
    ∧ (e.linkUp = true → e.process ≠ .stopped → e.teardown = false →
        ∃ u : State, exec (.teardown p) s = .next u.react ∧ rest u ∧ (u.port p).doneMark = e.doneMark ∧ (u.port p).position = e.position ∧ (u.port p).pushes = []
        ∧ (e.list = [] → (u.port p).process = .stopped ∧ (u.port p).stopRequested = false ∧ (u.port p).cause = .none)
        ∧ (e.list ≠ [] → (u.port p).teardown = true ∧ (u.port p).process = e.process
            ∧ (u.port p).list = e.list.map fun c => if c.status = none then
                { c with status := some { status := .torn, blocks := blocksDoneAtEnd c, result0 := 0, result1 := 0 }
                         held := false, work := .none } else c))
    ∧ (e.linkUp = true → ∃ u : State, exec (.resetPort p) s = .next u.react ∧ rest u
        ∧ u.port p = { PortEngine.reset with nextId := e.nextId } ∧ u.notice p = NoticeUnit.reset)
    ∧ ∀ c : Command, (∀ i m a b pushed l, c.work = .read i m a b pushed l → blocksDoneAtEnd c = pushed)
      ∧ (∀ i accepted l, c.work = .write i accepted l → blocksDoneAtEnd c = accepted)
      ∧ (∀ applied, c.work = .trim applied → blocksDoneAtEnd c = if applied then c.record.count.toNat else 0)
      ∧ (∀ i read entries, c.work = .report i read entries → blocksDoneAtEnd c = entries)
      ∧ (c.work = .none ∨ c.work = .checkpoint ∨ c.work = .close ∨ (∃ total journal, c.work = .flush total journal) →
          blocksDoneAtEnd c = 0)

/-! ### Commands (chapters 9 and 10) -/

/-- R144, R146, R156, R157, R168, R170, R172: the taking of a command, by its row or by the answer to a record read of RUNNING
that is owned and holds all its pieces. The command joins the tail of the in-flight list with the record's address, the
position moves by its next address, and the tests are applied in order: each test that decides finishes the command with
blocks done and result words 0, in LOADING and REBUILDING every command but NOP is held, an opcode above 10 is a BAD COMMAND,
and NOP finishes DONE. The formats, the stream and range tests and the item selectors are those of the tables. That the
position stays at a record whose next address is unaligned is read from R146 by inference (log entry 19); a row whose port
cannot take a command changes nothing (the model's choice, log entry 2). -/
def Obligations.TakingACommand : Prop :=
  (∀ (s : State) (p : Port),
    let taken (i : Instr) (k : Nat) (c : CommandRecord) (a : Address) : Prop := ∃ (u : State) (d : Command),
      exec i s = .next u.react
      ∧ (u.port p).list.getLast? = some d ∧ (u.port p).list.length = (s.port p).list.length + 1
      ∧ d.id = (s.port p).nextId ∧ d.opcode = k ∧ d.record = c ∧ d.first = a ∧ d.endsChain = decide (c.next = 0)
      ∧ (c.next = 0 → (u.port p).process = .suspendedEnd ∧ (u.port p).position = .afterRecord c.last)
      ∧ (c.next ≠ 0 → c.next.toNat % 64 = 0 → (u.port p).process = .running ∧ (u.port p).position = .atRecord c.next)
      ∧ (c.next.toNat % 64 ≠ 0 → (u.port p).process = .halted ∧ (u.port p).cause = .chainFormat
          ∧ (u.port p).flags.chainFormat = true ∧ (u.port p).position = .atRecord a)
      ∧ (let ends (st : Status) : Prop := d.status = some { status := st, blocks := 0, result0 := 0, result1 := 0 }
        if s.recovery.part = .faulted then ends .partFault
        else if (s.recovery.part = .loading ∨ s.recovery.part = .rebuilding) ∧ k ≠ 0 then d.status = none ∧ d.held = true
        else if 10 < k then ends .badCommand
        else if s.recovery.part = .unconfigured ∧ k ≠ 0 ∧ k ≠ 9 ∧ k ≠ 10 then ends .notConfigured
        else if s.recovery.part = .ready ∧ (k = 9 ∨ k = 10) then ends .refusedState
        else if formatOk k s.limits.1 c = false then ends .badCommand
        else if k = 2 ∧ s.streamValid p c = false then ends .streamInvalid
        else if rangeExceeded k s.limits.1 s.limits.2 c = true then ends .range
        else k = 0 → ends .done)
    (∀ k c i, commandRow k p c = some i → (takingAt (s.port p) = none → exec i s = .next s)
      ∧ ∀ a, takingAt (s.port p) = some a → taken i k c a)
    ∧ ∀ (w : RecordWords) (a : Address), takingAt (s.port p) = some a → (s.port p).walk = .record →
      w.w1.getLsbD 0 = true → w.w1.getLsbD 1 = false → (w.w1.extractLsb' 24 8).toNat ≤ 2 →
      taken (.recordReadAnswer p w) (w.w1.extractLsb' 8 8).toNat
        { flags := w.w1.extractLsb' 0 8, stream := w.w1.extractLsb' 16 8, count := w.w1.extractLsb' 32 32, lbn := w.w2,
          pieces := [w.w3, w.w4].take (w.w1.extractLsb' 24 8).toNat, last := a, next := w.w0 } a)
  ∧ (∀ (c : CommandRecord) (k user bands : Nat),
    let n := c.count.toNat
    let pieces (length : Nat) : Prop := c.pieces ≠ [] ∧ (c.pieces.map fun w => w.toNat % 4096 + 1).sum = length
    let lbn := c.lbn.toNat
    (formatOk k user c = true ↔ match k with
      | 0 => True
      | 1 => 1 ≤ n ∧ n ≤ 4096 ∧ pieces n
      | 2 => 1 ≤ n ∧ n ≤ 4096 ∧ pieces n ∧ c.stream.toNat ≤ 7
      | 3 => 1 ≤ n ∧ n ≤ user ∧ c.pieces = []
      | 5 => n = 1 ∧ c.pieces = []
      | 6 => 1 ≤ n ∧ n ≤ 256 ∧ pieces ((n + 127) / 128)
      | 9 => c.pieces = [] ∧ ∃ x, selector c.lbn = some x
      | _ => k ≤ 10 ∧ c.pieces = [])
    ∧ (rangeExceeded k user bands c = true ↔ (k = 1 ∨ k = 2 ∨ k = 3) ∧ user < lbn + n ∨ k = 5 ∧ user ≤ lbn
        ∨ k = 6 ∧ bands < lbn + n)
    ∧ ∀ item index, selector c.lbn = some (item, index) ↔ lbn < 65536 ∧ item = lbn % 256 ∧ index = lbn / 256 ∧
        (6 ≤ item ∧ item ≤ 9 ∧ 1 ≤ index ∧ index ≤ 32 ∨ item = 17 ∧ index ≤ 7
          ∨ (1 ≤ item ∧ item ≤ 5 ∨ 10 ≤ item ∧ item ≤ 16) ∧ index = 0))
  ∧ ∀ (s : State) (p : Port) (c : CommandRecord),
    (s.streamValid p c = true ↔ if c.stream.toNat ≤ 3 then s.staging.owners.get p = p
      else s.staging.owners.get (otherPort p) = p)
    ∧ s.limits = match s.geo.inForce with
      | none => (0, 0)
      | some g => (g.userBlocks, totalBands g)

/-- R42, R67, R158, R159: READ in READY, its format and range kept, begins with no block looked up. Its lookups follow one after
another, each an event of its own: that of the next block in the staging index, and where that answers NOT STAGED one in the map.
A staged block's slot is pinned and pushed from; an unmapped block is pushed as zeros; either closes the READ's open run. A mapped
block extends the open run where it stands at its next offset, on its track, below 64 blocks; otherwise it closes it and starts a
run with a read reference; the last block closes its run. A run that closes asks for its READING slots on the general account, and
enters the media queue with the last of them. That a step on an empty queue makes one lookup is the model's choice (log entries 4
and 8); here one READ alone has lookups left. -/
def Obligations.ReadLooksItsBlocksUp : Prop :=
  (∀ (s : State) (p : Port) (c : CommandRecord) (a : Address), takingAt (s.port p) = some a → s.recovery.part = .ready →
    formatOk 1 s.limits.1 c = true → rangeExceeded 1 s.limits.1 s.limits.2 c = false →
    ∃ (u : State) (d : Command), exec (.read p c) s = .next u.react ∧ (u.port p).list.getLast? = some d ∧ d.status = none
      ∧ d.record = c ∧ d.work = .read 0 false 0 0 0 [] ∧ (u.port p).pushes = (s.port p).pushes ∧ u.map = s.map
      ∧ u.staging = s.staging ∧ u.bands = s.bands ∧ u.media = s.media)
  ∧ ∀ (s : State) (p : Port) (c : Command) (i a b k : Nat) (m : Bool) (l : List (Nat × FailedBlock)), s.pending = [] →
    s.recovery.part = .ready → s.cleaner.state ≠ .selecting ∨ s.cleaner.table = none → s.readers = [(p, c)] →
    c.work = .read i m a b k l →
    let x := c.record.lbn.toNat + i
    let last : Bool := decide (i + 1 = c.record.count.toNat)
    let open? := s.media.forming.filter (isOpenRun p c.id)
    let full : Prop := s.staging.requests.get .general ≠ []
      ∨ accountLimit s.staging.size .general ≤ s.staging.charges.get .general
    let looks (w : Work) (rest : State → Prop) : Prop := ∃ t, step s = .next t ∧ { c with work := w } ∈ (t.port p).list
      ∧ (t.port p).list.length = (s.port p).list.length
      ∧ (∀ d ∈ (s.port p).list, d.id ≠ c.id → d ∈ (t.port p).list) ∧ t.map = s.map ∧ t.staging.index = s.staging.index
      ∧ t.geo = s.geo ∧ t.seq = s.seq ∧ t.recovery = s.recovery ∧ t.port (otherPort p) = s.port (otherPort p) ∧ rest t
    let pushed (t : State) (block : Block) (n : Option Nat) : Prop := (t.port p).pushes = (s.port p).pushes
      ++ [{ cmd := c.id, index := i, address := blockAddress c.record.pieces i, block := block, slot := n }]
    let asked (t : State) (rs : List FormingRead) : Prop := t.staging.slots = s.staging.slots ∧ t.media.queue = s.media.queue
      ∧ (∀ r ∈ rs, { r with isOpen := false } ∈ t.media.forming)
      ∧ t.staging.requests.get .general = s.staging.requests.get .general
          ++ (rs.map fun r => r.lbns.map fun y => SlotRequest.reading r.id p y).flatten
    let fresh (bd o : Nat) : FormingRead := { id := s.media.stamp, origin := .port p, command := c.id, band := bd, first := o,
                                              lbns := [x], blocks := [i], slots := [], isOpen := true }
    (m = false → s.indexed x = none → looks (.read i true a b k l) fun t =>
      (t.port p).pushes = (s.port p).pushes ∧ t.staging = s.staging ∧ t.media = s.media ∧ t.bands = s.bands)
    ∧ (∀ n y, m = false → s.indexed x = some n → s.slot n = some y → looks (.read (i + 1) false (a + 1) b k l) fun t =>
        pushed t y.data (some n) ∧ t.bands = s.bands ∧ { y with pins := y.pins + 1 } ∈ t.staging.slots
        ∧ (open? = [] → t.media = s.media ∧ t.staging.requests = s.staging.requests)
        ∧ ∀ r, open? = [r] → full → { r with isOpen := false } ∈ t.media.forming ∧ t.staging.requests.get .general
            = s.staging.requests.get .general ++ r.lbns.map fun y => .reading r.id p y)
    ∧ (m = true → s.lookup x = none → looks (.read (i + 1) false a (b + 1) k l) fun t =>
        pushed t zeroBlock none ∧ t.bands = s.bands
        ∧ (open? = [] → t.media = s.media ∧ t.staging = s.staging)
        ∧ (∀ r, open? = [r] → full → asked t [r])
        ∧ ∀ r y, open? = [r] → s.media.forming = [r] → r.lbns = [y] → r.slots = [] →
            s.staging.requests.get .general = [] →
            s.staging.charges.get .general < accountLimit s.staging.size .general → s.queueRoom = true →
            t.staging.charges.get .general = s.staging.charges.get .general + 1 ∧ t.media.forming = []
            ∧ t.staging.requests.get .general = []
            ∧ ∃ op, t.media.queue = s.media.queue ++ [op] ∧ op.kind = .readRun ∧ op.origin = .port p
              ∧ op.place = .band r.band r.first ∧ op.count = 1 ∧ op.blocks = r.blocks ∧ op.command = r.command)
    ∧ ∀ bd o n, m = true → s.lookup x = some (bd, o, n) → looks (.read (i + 1) false a b k l) fun t =>
        let started : Prop := t.bands.emptyCount = s.bands.emptyCount
          ∧ ∀ e, t.band e = (s.band e).map fun y => if e = bd then { y with refs := y.refs + 1 } else y
        (t.port p).pushes = (s.port p).pushes
        ∧ (open? = [] → started
            ∧ (last = false → t.staging = s.staging ∧ t.media.forming = s.media.forming ++ [fresh bd o])
            ∧ (last = true → full → asked t [fresh bd o]))
        ∧ ∀ r, open? = [r] →
          (r.band = bd ∧ o = r.first + r.lbns.length ∧ o / (s.shape bd).track = r.first / (s.shape bd).track
              ∧ r.lbns.length < Config.readRunLimit → t.bands = s.bands
            ∧ (last = false → t.staging = s.staging
                ∧ { r with lbns := r.lbns ++ [x], blocks := r.blocks ++ [i] } ∈ t.media.forming)
            ∧ (last = true → full → asked t [{ r with lbns := r.lbns ++ [x], blocks := r.blocks ++ [i] }]))
          ∧ (r.band ≠ bd ∨ o ≠ r.first + r.lbns.length ∨ o / (s.shape bd).track ≠ r.first / (s.shape bd).track
              ∨ Config.readRunLimit ≤ r.lbns.length → started
            ∧ (last = false → full → asked t [r] ∧ fresh bd o ∈ t.media.forming)
            ∧ (last = true → full → asked t [r, fresh bd o]))

/-- R54, R56, R58, R63, R132, R160, R162, R163: in READY, format and range kept: WRITE asks for the FILLING slot of its first
block on the account of the port that owns its stream, granted at once below the limit with no older request, and waiting
otherwise; TRIM hands its range to the Map Unit as one trim, which joins the record wait list at once where its records are
short, and otherwise waits for an entry place where that alone is lacking; FLUSH makes a pad request for each stream its port
owns whose set is not empty and asks for a journal write, answered at once where no record is unwritten and no write is under
way. That the lowest FREE slot is granted (log entry 7), and that a WRITE asks for one slot at a time (log entry 8), are the
model's choices. That a trim whose records are there is not applied at its taking, but by the row TRIM_APPLY, is the model's
reading, and that a trim waits for the write-phase flag only where an entry place alone is lacking its choice (log entry 22). -/
def Obligations.WriteTrimAndFlushBegin : Prop :=
  ∀ (s : State) (p : Port) (c : CommandRecord) (a : Address), takingAt (s.port p) = some a → s.recovery.part = .ready →
    s.Numbered →
    let id := (s.port p).nextId
    (formatOk 2 s.limits.1 c = true → s.streamValid p c = true → rangeExceeded 2 s.limits.1 s.limits.2 c = false →
      let st := writeStream p c
      let k := s.staging.streamAccount st
      ∃ (u : State) (d : Command), exec (.write p c) s = .next u.react ∧ (u.port p).list.getLast? = some d
        ∧ d.status = none ∧ d.work = .write 1 0 [] ∧ u.map = s.map ∧ u.bands = s.bands ∧ u.staging.index = s.staging.index
        ∧ (if s.staging.charges.get k < accountLimit s.staging.size k ∧ s.staging.requests.get k = [] then
            u.staging.charges.get k = s.staging.charges.get k + 1 ∧ u.staging.requests = s.staging.requests
            ∧ ∃ x ∈ u.staging.slots, x.number = lowestFree s.staging.slots 0 ∧ x.state = .filling ∧ x.lbn = c.lbn.toNat
                ∧ x.origin = .stream st ∧ x.command = some (p, id)
          else u.staging.slots = s.staging.slots ∧ u.staging.charges = s.staging.charges
            ∧ u.staging.requests.get k = s.staging.requests.get k ++ [.fill p id st c.lbn.toNat]))
    ∧ (formatOk 3 s.limits.1 c = true → rangeExceeded 3 s.limits.1 s.limits.2 c = false →
      ∃ (u : State) (d : Command), exec (.trim p c) s = .next u.react ∧ (u.port p).list.getLast? = some d
        ∧ d.status = none ∧ d.work = .trim false
        ∧ (let t : TrimRequest := { port := p, cmd := id, first := c.lbn.toNat, last := c.lbn.toNat + c.count.toNat - 1 }
          let r : RecordRequest := .trim p id
          let short : Prop := s.map.available < s.trimNeed t
          let noEntry : Prop := ¬short ∧ s.trimPlaces = true ∧ s.map.entryFree r = false
          u.map = { s.map with
            trims := s.map.trims ++ [t]
            recordWait := s.map.recordWait ++ if short ∧ r ∉ s.map.recordWait then [r] else []
            phaseWait := s.map.phaseWait ++ if noEntry ∧ r ∉ s.map.phaseWait then [r] else [] })
        ∧ u.staging = s.staging ∧ u.bands = s.bands)
    ∧ (formatOk 4 s.limits.1 c = true →
      ∃ (u : State) (d : Command), exec (.flush p c) s = .next u.react ∧ (u.port p).list.getLast? = some d
        ∧ d.status = none ∧ u.map = s.map ∧ u.staging = s.staging ∧ u.bands = s.bands
        ∧ (∀ st, (u.placer st).requests = (s.placer st).requests
            ++ if st ∈ s.ownedStreams p ∧ s.streamSet st ≠ [] then [{ owner := .command p id, slots := s.streamSet st }] else [])
        ∧ (∃ ok, d.work = .flush ((s.ownedStreams p).map fun st => (s.streamSet st).length).sum ok
            ∧ (ok = some true ↔ s.recovery.journalWrite.active = false ∧ s.recovery.unwritten = []))
        ∧ (s.recovery.journalWrite.active = false → s.recovery.unwritten ≠ [] → u.recovery.journalWrite.active = true
            ∧ u.recovery.journalWrite.requesters = [.command p id]
            ∧ u.recovery.journalWrite.taken = s.recovery.unwritten.map fun e => e.record.sequence)
        ∧ (s.recovery.journalWrite.active = true → u.recovery.journalWrite.further = true))

/-- R39, R128, R129, R164 to R166: in READY, format and range kept: LOCATE finishes at its taking with its outcome and address in
the result words and pins or references nothing; BAND REPORT stays RUNNING and has pushed nothing; CHECKPOINT starts a
checkpoint with its watermark at once where no run stands in the way (a run aborted in POSITIONING whose SEEK is unanswered does
not, which is the model's choice, log entry 14), joins one that is QUIESCING, and waits for the next
otherwise. A BAND REPORT has read no band record at its taking. That no event falls between the two lookups of a LOCATE is read
from R171, by which it finishes at its taking (log entry 8). -/
def Obligations.LocateReportAndCheckpointBegin : Prop :=
  ∀ (s : State) (p : Port) (c : CommandRecord) (a : Address), takingAt (s.port p) = some a → s.recovery.part = .ready →
    let id := (s.port p).nextId
    (∀ g, s.geo.inForce = some g → formatOk 5 s.limits.1 c = true → rangeExceeded 5 s.limits.1 s.limits.2 c = false →
      ∃ (u : State) (d : Command) (r0 r1 : Nat), exec (.locate p c) s = .next u.react ∧ (u.port p).list.getLast? = some d
        ∧ d.status = some { status := .done, blocks := 0, result0 := BitVec.ofNat 64 r0, result1 := BitVec.ofNat 64 r1 }
        ∧ u.staging = s.staging ∧ u.map = s.map ∧ u.bands = s.bands ∧ u.media = s.media
        ∧ ((s.indexed c.lbn.toNat).isSome → r0 = 1 ∧ r1 = 0)
        ∧ (s.indexed c.lbn.toNat = none → s.lookup c.lbn.toNat = none → r0 = 0 ∧ r1 = 0)
        ∧ (∀ b o n x, s.indexed c.lbn.toNat = none → s.lookup c.lbn.toNat = some (b, o, n) → bandAddress g b o = some x →
            r0 = 2 + x.zone * 2 ^ 8 + x.head * 2 ^ 16 + b * 2 ^ 20 + o * 2 ^ 40
            ∧ r1 = x.cylinder + x.sector * 2 ^ 32 + x.track * 2 ^ 48))
    ∧ (formatOk 6 s.limits.1 c = true → rangeExceeded 6 s.limits.1 s.limits.2 c = false →
      ∃ (u : State) (d : Command), exec (.bandReport p c) s = .next u.react ∧ (u.port p).list.getLast? = some d
        ∧ d.id = id ∧ d.status = none ∧ d.work = .report 0 [] 0 ∧ (u.port p).pushes = (s.port p).pushes ∧ u.map = s.map ∧ u.bands = s.bands ∧ u.staging = s.staging ∧ u.media = s.media)
    ∧ (formatOk 7 s.limits.1 c = true →
      ∃ (u : State) (d : Command), exec (.checkpoint p c) s = .next u.react ∧ (u.port p).list.getLast? = some d
        ∧ d.status = none ∧ d.work = .checkpoint ∧ u.bands = s.bands ∧ u.map.current = s.map.current
        ∧ match s.recovery.checkpoint.state with
          | .idle => u.recovery.joined = [(p, id)] ∧ (if s.noRunWrites then u.recovery.checkpoint.state = .writing
              ∧ u.recovery.checkpoint.watermark = s.map.runCounter ∧ u.map.writePhase = true
              else u.recovery.checkpoint.state = .quiescing ∧ u.map = s.map)
          | .quiescing => u.recovery = { s.recovery with joined := s.recovery.joined ++ [(p, id)] }
          | .writing => u.recovery = { s.recovery with due := true, next := s.recovery.next ++ [(p, id)] }
          | .finishing => u.recovery = { s.recovery with due := true, next := s.recovery.next ++ [(p, id)] })

/-- R3, R4, R5, R10, R11, R13, R14, R62, R168, R169, R174, R175: TAKEOVER in READY, by whether its port holds the takeover,
whether the other port walks, and FORCE. CONFIG WRITE and CONFIG CLOSE in UNCONFIGURED, by the draft's status, the first check
that fails, and whether the cylinder count is known. Checks 1 to 20 are those of the table, an item that a check names and
that is absent failing it, and the first that fails is the one reported. -/
def Obligations.TakeoverAndConfigBegin : Prop :=
  (∀ d : List DraftItem, (∀ e ∈ d, e.value < 2 ^ 32) →
    let has (i k low high : Nat) : Prop := ∃ v, draftGet d i k = some v ∧ low ≤ v ∧ v ≤ high
    let val (i k : Nat) : Nat := (draftGet d i k).getD 0
    let zone (z : Nat) : Prop := 1 ≤ z ∧ z ≤ val 2 0
    let size (z : Nat) : Nat := val 3 0 * val 6 z
    let capacity (z : Nat) : Nat := size z - (size z + 255) / 256
    let sum (f : Nat → Nat) : Nat := ((List.range (val 2 0)).map fun z => f (z + 1)).sum
    let bands := sum fun z => val 9 z * val 1 0
    let holds (i : Nat) : Prop := match i with
      | 1 => has 2 0 1 32
      | 2 => has 1 0 1 16
      | 3 => has 3 0 16 128
      | 4 => has 4 0 1 2
      | 5 => has 5 0 8 4096
      | 6 => ∀ z, zone z → has 6 z 128 1023
      | 7 => ∀ z, zone z → ∃ v, draftGet d 7 z = some v ∧ v < val 6 z
      | 8 => ∀ z, zone z → ∃ v, draftGet d 9 z = some v ∧ 1 ≤ v
      | 9 => bands ≤ 131072
      | 10 => has 10 0 1048576 4000000000
      | 11 => has 11 0 65536 16777216
      | 12 => has 12 0 4096 262144 ∧ val 12 0 % 8 = 0
      | 13 => ∃ v, draftGet d 8 1 = some v ∧ val 5 0 ≤ v
      | 14 => ∀ z, zone z → (draftGet d 8 z).isSome
          ∧ (zone (z + 1) → val 8 z + val 9 z * (val 3 0 + val 4 0) ≤ val 8 (z + 1))
      | 15 => has 14 0 3 4096 ∧ has 13 0 (val 14 0 + 1) 4096
      | 16 => has 15 0 1 1023
      | 17 => ∀ v, draftGet d 16 0 = some v → 1 ≤ v ∧ v ≤ 255
      | 18 => ∀ i v, i < 8 → draftGet d 17 i = some v → v ≤ 1
      | 19 => ∀ z, zone z → val 10 0 + 16 * capacity z ≤ sum fun y => val 9 y * val 1 0 * capacity y
      | 20 => 2 + 2 * (1 + (val 11 0 + 255) / 256 + (bands + 127) / 128) + 512 ≤ val 5 0 * val 1 0 * val 6 1
      | _ => True
    (failingCheck d = none ↔ ∀ i, 1 ≤ i → i ≤ 20 → holds i)
    ∧ ∀ i, failingCheck d = some i ↔ 1 ≤ i ∧ i ≤ 20 ∧ ¬holds i ∧ ∀ j, 1 ≤ j → j < i → holds j)
  ∧ ∀ (s : State) (p : Port) (c : CommandRecord) (a : Address), takingAt (s.port p) = some a →
    let q := otherPort p
    let answers (i : Instr) (st : Status) (r0 : Nat) (rest : State → Prop) : Prop :=
      ∃ (u : State) (d : Command), exec i s = .next u.react ∧ (u.port p).list.getLast? = some d
        ∧ d.status = some { status := st, blocks := 0, result0 := BitVec.ofNat 64 r0, result1 := 0 } ∧ rest u
    (s.recovery.part = .ready → c.pieces = [] →
      (s.takeoverHeld p = true → answers (.takeover p c) .done 0 fun u => u.staging = s.staging ∧ u.port q = s.port q)
      ∧ (s.takeoverHeld p = false → isWalking (s.port q).process = true → forceBit c.flags = false →
          answers (.takeover p c) .refusedState 0 fun u => u.staging = s.staging ∧ u.port q = s.port q)
      ∧ (s.takeoverHeld p = false → isWalking (s.port q).process = false ∨ forceBit c.flags = true →
          answers (.takeover p c) .done 0 fun u => u.staging.owners = s.staging.owners.set q p ∧ u.takeoverHeld p = true
            ∧ (u.port q).flags.takenOver = ((s.port q).flags.takenOver || forceBit c.flags)
            ∧ (isWalking (s.port q).process = true → if (s.port q).list = [] then (u.port q).process = .stopped
                else (u.port q).teardown = true ∧ ∀ x ∈ (u.port q).list, x.status.isSome)
            ∧ ((s.port q).process = .stopped → (u.port q).process = .stopped) ∧ u.map.table = s.map.table))
    ∧ (s.recovery.part = .unconfigured → s.geo.status = .closing → c.pieces = [] → (selector c.lbn).isSome →
        answers (.configWrite p c) .refusedState 0 (fun u => u.geo = s.geo)
        ∧ answers (.configClose p c) .refusedState 0 fun u => u.geo = s.geo ∧ u.recovery = s.recovery)
    ∧ (s.recovery.part = .unconfigured → s.geo.status = .editable → c.pieces = [] →
        (∀ item index, selector c.lbn = some (item, index) → answers (.configWrite p c) .done 0 fun u =>
          u.geo = { s.geo with draft := u.geo.draft } ∧ ∀ x y, draftGet u.geo.draft x y
            = if x = item ∧ y = index then some c.count.toNat else draftGet s.geo.draft x y)
        ∧ (∀ n, failingCheck s.geo.draft = some n → answers (.configClose p c) .geometryInvalid n fun u =>
            u.geo = s.geo ∧ u.recovery = s.recovery)
        ∧ (∀ n, failingCheck s.geo.draft = none → s.geo.cylinders = some n → n ≤ lastCylinder (draftRecord s.geo.draft) →
            answers (.configClose p c) .geometryInvalid 21 fun u => u.geo = s.geo ∧ u.recovery.close = none)
        ∧ (failingCheck s.geo.draft = none → (∀ n, s.geo.cylinders = some n → lastCylinder (draftRecord s.geo.draft) < n) →
            ∃ (u : State) (d : Command) (w : CloseWork), exec (.configClose p c) s = .next u.react
              ∧ (u.port p).list.getLast? = some d ∧ d.status = none ∧ u.geo = { s.geo with status := .closing }
              ∧ u.recovery.close = some w ∧ w.record = draftRecord s.geo.draft ∧ w.port = p ∧ w.cmd = (s.port p).nextId
              ∧ (s.geo.cylinders = none → w.step = .awaitReady ∧ u.media = s.media)
              ∧ (s.geo.cylinders.isSome → w.step ≠ .awaitReady)))
end

