-- ==== Sys2Proof/Laws/Block.lean ====
section
/-! SUPPORT. The bytes of a block: a byte written is read back, every other byte stays, and a write keeps the block's one
form. -/

namespace Sys2Proof.Machine

/-- Every offset of a block lies above a bound. -/
def above (k : Nat) (b : Block) : Prop := ∀ c ∈ b, k < c.1

/-- The one form of a block, as a proposition: offsets rising, no listed byte 0. -/
def Canonical : Block → Prop
  | [] => True
  | c :: rest => c.2 ≠ 0 ∧ above c.1 rest ∧ Canonical rest

theorem blockRead_above {k : Nat} {b : Block} (h : above k b) : blockRead b k = 0 := by
  induction b with
  | nil => rfl
  | cons c rest ih =>
    have hc : k < c.1 := h c (by simp)
    have : ¬ c.1 = k := by omega
    simp only [blockRead, if_neg this]
    exact ih fun x hx => h x (by simp [hx])

theorem above_trans {j k : Nat} {b : Block} (h : above k b) (l : j < k) : above j b := fun c hc => Nat.lt_trans l (h c hc)

/-- The byte written is read back. -/
theorem blockRead_blockWrite_same {b : Block} (h : Canonical b) (k : Nat) (v : Byte) : blockRead (blockWrite b k v) k = v := by
  induction b with
  | nil =>
    unfold blockWrite
    split
    · rename_i hv
      exact hv.symm
    · simp [blockRead]
  | cons c rest ih =>
    obtain ⟨_, ha, hr⟩ := h
    unfold blockWrite
    split
    · rename_i hlt
      have : ¬ c.1 = k := by omega
      simp only [blockRead, if_neg this]
      exact ih hr
    · split
      · rename_i he
        split
        · rename_i hv
          rw [hv]
          exact blockRead_above (he ▸ ha)
        · simp [blockRead]
      · split
        · rename_i hn he hv
          rw [hv]
          have hk : k < c.1 := by omega
          exact blockRead_above fun x hx => by
            rcases List.mem_cons.mp hx with hx | hx
            · exact hx ▸ hk
            · exact Nat.lt_trans hk (ha x hx)
        · simp [blockRead]

/-- Every other byte stays. -/
theorem blockRead_blockWrite_other (b : Block) {j k : Nat} (h : j ≠ k) (v : Byte) :
    blockRead (blockWrite b k v) j = blockRead b j := by
  induction b with
  | nil =>
    unfold blockWrite
    split
    · rfl
    · simp [blockRead, Ne.symm h]
  | cons c rest ih =>
    unfold blockWrite
    split
    · simp only [blockRead, ih]
    · split
      · rename_i he
        have hc : ¬ c.1 = j := fun e => h (e.symm.trans he)
        split
        · simp [blockRead, hc]
        · simp [blockRead, hc, Ne.symm h]
      · split
        · rfl
        · simp [blockRead, Ne.symm h]

theorem above_blockWrite {j k : Nat} {b : Block} (h : above j b) (l : j < k) (v : Byte) : above j (blockWrite b k v) := by
  induction b with
  | nil =>
    unfold blockWrite
    split
    · exact h
    · intro x hx
      simp at hx
      exact hx ▸ l
  | cons c rest ih =>
    have hc : j < c.1 := h c (by simp)
    have hr : above j rest := fun x hx => h x (by simp [hx])
    have mem {d : Host.Cell} {b : Block} (hd : j < d.1) (hb : above j b) : above j (d :: b) := fun x hx => by
      rcases List.mem_cons.mp hx with hx | hx
      · exact hx ▸ hd
      · exact hb x hx
    unfold blockWrite
    split
    · exact mem hc (ih hr)
    · split
      · split
        · exact hr
        · exact mem l hr
      · split
        · exact h
        · exact mem l (mem hc hr)

/-- A write keeps the block's one form. -/
theorem canonical_blockWrite {b : Block} (h : Canonical b) (k : Nat) (v : Byte) : Canonical (blockWrite b k v) := by
  induction b with
  | nil =>
    unfold blockWrite
    split
    · exact h
    · rename_i hv
      exact ⟨hv, fun x hx => by simp at hx, trivial⟩
  | cons c rest ih =>
    obtain ⟨hv, ha, hr⟩ := h
    unfold blockWrite
    split
    · rename_i hlt
      exact ⟨hv, above_blockWrite ha hlt v, ih hr⟩
    · split
      · rename_i he
        split
        · exact hr
        · rename_i hw
          exact ⟨hw, he ▸ ha, hr⟩
      · split
        · exact ⟨hv, ha, hr⟩
        · rename_i hn he hw
          have hk : k < c.1 := by omega
          exact ⟨hw, fun x hx => by
            rcases List.mem_cons.mp hx with hx | hx
            · exact hx ▸ hk
            · exact Nat.lt_trans hk (ha x hx), hv, ha, hr⟩

/-- Consecutive writes keep the block's one form. -/
theorem canonical_blockWriteAll {b : Block} (h : Canonical b) (k : Nat) (vs : List Byte) : Canonical (blockWriteAll b k vs) := by
  induction vs generalizing b k with
  | nil => exact h
  | cons v vs ih => exact ih (canonical_blockWrite h k v) (k + 1)

end Sys2Proof.Machine
end

