-- ==== Sys2Proof/Laws/Frame.lean ====
section
/-! SUPPORT. The relation `Frame` between two states, and that the operations on one unit keep it. -/

namespace Sys2Proof.Machine

/-- What a command of a list is known by: its number and what was read of it. -/
def Command.key (c : Command) : Nat × Nat × CommandRecord × Address × Bool := (c.id, c.opcode, c.record, c.first, c.endsChain)

/-- Two states of a port that differ in nothing but the walk's outstanding read, what its commands have done, the blocks
pulled, the pushes, and what may be unanswered of what was discarded. -/
structure PortFrame (e f : PortEngine) : Prop where
  process : f.process = e.process
  cause : f.cause = e.cause
  position : f.position = e.position
  stopRequested : f.stopRequested = e.stopRequested
  teardown : f.teardown = e.teardown
  nextId : f.nextId = e.nextId
  pollTimer : f.pollTimer = e.pollTimer
  writeBack : f.writeBack = e.writeBack
  doneMark : f.doneMark = e.doneMark
  writeBacks : f.writeBacks = e.writeBacks
  ackMark : f.ackMark = e.ackMark
  autopoll : f.autopoll = e.autopoll
  flags : f.flags = e.flags
  linkUp : f.linkUp = e.linkUp
  keys : f.list.map Command.key = e.list.map Command.key

/-- What the operations inside an event leave alone: the queue of commands, the geometry, the sequencer, the notices, the
owners of the groups, the size of the pool, the part state, a CONFIG CLOSE under way, the number of bands, and of each port
all but its walk, its pulls and pushes and what its commands have done. A right EMPTY count stays right, and in FAULTED the Cleaner's state stays as it stands. -/
structure Frame (s t : State) : Prop where
  pending : t.pending = s.pending
  geo : t.geo = s.geo
  seq : t.seq = s.seq
  notices : t.notices = s.notices
  owners : t.staging.owners = s.staging.owners
  size : t.staging.size = s.staging.size
  part : t.recovery.part = s.recovery.part
  close : t.recovery.close = s.recovery.close
  bands : t.bands.records.length = s.bands.records.length
  counted : s.EmptyCounted → t.EmptyCounted
  ports : ∀ p, PortFrame (s.port p) (t.port p)
  cleaner : s.recovery.part = .faulted → t.cleaner = s.cleaner

theorem PortFrame.refl (e : PortEngine) : PortFrame e e := 
  ⟨rfl, rfl, rfl, rfl, rfl, rfl, rfl, rfl, rfl, rfl, rfl, rfl, rfl, rfl, rfl⟩

theorem PortFrame.trans {e f g : PortEngine} (h : PortFrame e f) (k : PortFrame f g) : PortFrame e g :=
  ⟨k.1.trans h.1, k.2.trans h.2, k.3.trans h.3, k.4.trans h.4, k.5.trans h.5, k.6.trans h.6, k.7.trans h.7, k.8.trans h.8,
    k.9.trans h.9, k.10.trans h.10, k.11.trans h.11, k.12.trans h.12, k.13.trans h.13, k.14.trans h.14, k.15.trans h.15⟩

theorem Frame.refl (s : State) : Frame s s := 
  ⟨rfl, rfl, rfl, rfl, rfl, rfl, rfl, rfl, rfl, id, fun _ => .refl _, fun _ => rfl⟩

theorem Frame.trans {s t u : State} (h : Frame s t) (k : Frame t u) : Frame s u :=
  ⟨k.1.trans h.1, k.2.trans h.2, k.3.trans h.3, k.4.trans h.4, k.5.trans h.5, k.6.trans h.6, k.7.trans h.7, k.8.trans h.8,
    k.9.trans h.9, fun c => k.10 (h.10 c), fun p => (h.11 p).trans (k.11 p),
    fun x => (k.12 (h.7.trans x)).trans (h.12 x)⟩

/-- One more step from `i` on. -/
theorem Frame.after {s i t : State} (k : Frame i t) (h : Frame s i) : Frame s t := h.trans k

theorem Frame.upd {s i t : State} (h :
    Frame s i) (hp : t.pending = i.pending) (h1 : t.geo = i.geo) (h2 : t.seq = i.seq) (h3 : t.notices = i.notices)
    (h4 : t.staging.owners = i.staging.owners) (h5 : t.staging.size = i.staging.size) (h6 : t.recovery.part = i.recovery.part)
    (h7 : t.recovery.close = i.recovery.close) (h8 : t.bands.records = i.bands.records)
    (h9 : t.bands.emptyCount = i.bands.emptyCount) (h10 : t.ports = i.ports)
    (h11 : t.cleaner = i.cleaner) : Frame s t :=
  h.trans ⟨hp, h1, h2, h3, h4, h5, h6, h7, by rw [h8], by unfold State.EmptyCounted; rw [h8, h9]; exact id,
    fun p => by unfold State.port; rw [h10]; exact .refl _, fun _ => h11⟩

theorem putBand_length (rs : List BandRecord) (b : Nat) (r : BandRecord) : (rs.set b r).length = rs.length := by simp

theorem emptyRecords_cons (x : BandRecord) (xs : List BandRecord) :
    emptyRecords (x :: xs) = (if x.state = .empty then 1 else 0) + emptyRecords xs := by
  by_cases hx : x.state = .empty <;> simp [emptyRecords, hx, Nat.add_comm]

theorem emptyRecords_pos {rs : List BandRecord} {b : Nat} {old : BandRecord} (h : rs[b]? = some old)
    (he : old.state = .empty) : 1 ≤ emptyRecords rs :=
  List.length_pos_of_mem (a := old) (by simp [he, List.mem_of_getElem? h])

theorem emptyRecords_set (rs : List BandRecord) (b : Nat) (r old : BandRecord) (h : rs[b]? = some old) :
    emptyRecords (rs.set b r) = countEmpty (emptyRecords rs) old.state r.state := by
  induction rs generalizing b with
  | nil => simp at h
  | cons x xs ih =>
    cases b with
    | zero =>
      simp at h; subst h
      rw [List.set_cons_zero, emptyRecords_cons, emptyRecords_cons]
      unfold countEmpty
      split <;> split <;> simp_all; omega
    | succ b =>
      have h1 : xs[b]? = some old := by simpa using h
      rw [List.set_cons_succ, emptyRecords_cons, emptyRecords_cons, ih b h1]
      have h2 := emptyRecords_pos (rs := xs) h1
      unfold countEmpty
      by_cases ho : old.state = .empty <;> by_cases hr : r.state = .empty <;> simp [ho, hr] <;> simp_all <;> omega

theorem State.putBand_frame (s : State) (b : Nat) (r : BandRecord) : Frame s (s.putBand b r) := by
  unfold State.putBand
  split
  · exact .refl _
  · rename_i old h
    refine ⟨rfl, rfl, rfl, rfl, rfl, rfl, rfl, rfl, putBand_length .., fun c => ?_, fun _ => .refl _, fun f => if_pos f⟩
    unfold State.EmptyCounted at *
    exact (congrArg (countEmpty · old.state r.state) c).trans (emptyRecords_set _ _ _ _ h).symm

theorem State.modPort_frame (s : State) (p : Port) (f : PortEngine → PortEngine) (h : PortFrame (s.port p) (f (s.port p))) :
    Frame s (s.modPort p f) := by
  refine ⟨rfl, rfl, rfl, rfl, rfl, rfl, rfl, rfl, rfl, id, fun q => ?_, fun _ => rfl⟩
  cases p <;> cases q <;> first | exact h | exact .refl _

theorem State.modPlacer_frame (s : State) (st : Stream) (f : Placer → Placer) : Frame s (s.modPlacer st f) :=
  ⟨rfl, rfl, rfl, rfl, rfl, rfl, rfl, rfl, rfl, id, fun _ => .refl _, fun _ => rfl⟩
theorem State.setPlacer_frame (s : State) (st : Stream) (f : Placer) : Frame s (s.setPlacer st f) :=
  ⟨rfl, rfl, rfl, rfl, rfl, rfl, rfl, rfl, rfl, id, fun _ => .refl _, fun _ => rfl⟩

theorem Frame.mk' {s i : State} {geo : GeometryUnit} {bands : BandTable} {map : MapUnit} {staging : Staging}
    {placers : PerStream Placer} {media : MediaArbiter} {seq : Sequencer} {cleaner : Cleaner} {recovery : Recovery}
    {ports : PerPort PortEngine} {notices : PerPort NoticeUnit} {pending : List Instr}
    (e : (pending, geo, seq, notices, staging.owners, staging.size, recovery.part, recovery.close, bands.records,
        bands.emptyCount, ports, cleaner)
      = (i.pending, i.geo, i.seq, i.notices, i.staging.owners, i.staging.size, i.recovery.part, i.recovery.close,
        i.bands.records, i.bands.emptyCount, i.ports, i.cleaner)) (h : Frame s i) :
    Frame s ⟨geo, bands, map, staging, placers, media, seq, cleaner, recovery, ports, notices, pending⟩ := by
  simp only [Prod.mk.injEq] at e
  obtain ⟨h0, h1, h2, h3, h4, h5, h6, h7, h8, h9, h10, h11⟩ := e
  exact h.upd h0 h1 h2 h3 h4 h5 h6 h7 h8 h9 h10 h11

theorem State.modCleaner_frame (s : State) (f : Cleaner → Cleaner) : Frame s (s.modCleaner f) :=
  ⟨rfl, rfl, rfl, rfl, rfl, rfl, rfl, rfl, rfl, id, fun _ => .refl _, fun x => if_pos x⟩

theorem map_key {f : Command → Command} (hf : ∀ c, (f c).key = c.key) (l : List Command) :
    (l.map f).map Command.key = l.map Command.key := by
  rw [List.map_map]
  exact List.map_congr_left fun c _ => hf c

/-- An update of a port's list that keeps the commands' keys. -/
theorem State.modList_frame (s : State) (p : Port) (f : Command → Command) (hf : ∀ c, (f c).key = c.key) :
    Frame s (s.modPort p fun e => { e with list := e.list.map f }) :=
  s.modPort_frame p _ ⟨rfl, rfl, rfl, rfl, rfl, rfl, rfl, rfl, rfl, rfl, rfl, rfl, rfl, rfl, map_key hf _⟩

theorem State.modCommand_frame (s : State) (p : Port) (id : Nat) (f : Command → Command) (hf : ∀ c, (f c).key = c.key) :
    Frame s (s.modCommand p id f) :=
  s.modList_frame p _ fun c => by split <;> first | exact hf c | rfl

end Sys2Proof.Machine
end

