-- ==== Sys2Proof/Laws/Frames.lean ====
section
/-! SUPPORT. Every operation of chapters 2 to 8 that an event is made of leaves alone what `Frame` names, up to what the part does at the
end of an event (`State.react_frame`). -/

namespace Sys2Proof.Machine

theorem State.modBand_frame (s : State) (b : Nat) (f : BandRecord → BandRecord) : Frame s (s.modBand b f) := by
  unfold State.modBand
  repeat' split
  all_goals iterate 2 try first | exact .refl _ | refine .after (State.putBand_frame ..) ?_

theorem State.emptyTheBand_frame (s : State) (b : Nat) : Frame s (s.emptyTheBand b) := by
  unfold State.emptyTheBand
  iterate 2 try first | exact .refl _ | refine .after (State.modBand_frame ..) ?_

theorem State.testBand_frame (s : State) (b : Nat) : Frame s (s.testBand b) := by
  unfold State.testBand
  repeat' split
  all_goals iterate 2 try first
      | exact .refl _ | refine .after (State.emptyTheBand_frame ..) ?_ | refine .after (State.modCleaner_frame ..) ?_

theorem State.addRef_frame (s : State) (b : Nat) : Frame s (s.addRef b) := by
  unfold State.addRef
  iterate 2 try first | exact .refl _ | refine .after (State.modBand_frame ..) ?_

theorem State.retestRelease_frame (s : State) (b : Nat) : Frame s (s.retestRelease b) := .mk' rfl (.refl _)

theorem State.dropRef_frame (s : State) (b : Nat) : Frame s (s.dropRef b) := by
  unfold State.dropRef
  iterate 4 try first
    | exact .refl _ | refine .after (State.retestRelease_frame ..) ?_ | refine .after (State.modBand_frame ..) ?_ | refine .after (State.testBand_frame ..) ?_

theorem State.raiseLive_frame (s : State) (x0 : List (Nat × Nat)) : Frame s (s.raiseLive x0) := by
  induction x0 generalizing s with
  | nil => exact .refl _
  | cons x xs ih =>
    unfold State.raiseLive
    iterate 3 try first
      | exact .refl _ | refine .after (ih ..) ?_ | refine .after (State.modBand_frame ..) ?_

theorem State.lowerLive_frame (s : State) (x0 : List (Nat × Nat)) : Frame s (s.lowerLive x0) := by
  induction x0 generalizing s with
  | nil => exact .refl _
  | cons x xs ih =>
    unfold State.lowerLive
    iterate 4 try first
      | exact .refl _ | refine .after (State.retestRelease_frame ..) ?_ | refine .after (ih ..) ?_ | refine .after (State.modBand_frame ..) ?_

theorem State.testBands_frame (s : State) (x0 : List (Nat × Nat)) : Frame s (s.testBands x0) := by
  induction x0 generalizing s with
  | nil => exact .refl _
  | cons x xs ih =>
    unfold State.testBands
    iterate 3 try first
      | exact .refl _ | refine .after (ih ..) ?_ | refine .after (State.testBand_frame ..) ?_

theorem State.askBand_frame (s : State) (st : Stream) : Frame s (s.askBand st) := by
  unfold State.askBand
  repeat' split
  all_goals iterate 2 try first | exact .refl _ | refine .mk' rfl ?_

theorem State.withdrawBand_frame (s : State) (st : Stream) : Frame s (s.withdrawBand st) := by
  unfold State.withdrawBand
  iterate 2 try first | exact .refl _ | refine .mk' rfl ?_

theorem State.grantBand_frame (s : State) : Frame s s.grantBand := by
  unfold State.grantBand
  repeat' split
  all_goals iterate 4 try first
      | exact .refl _ | refine .after (State.withdrawBand_frame ..) ?_ | refine .after (State.putBand_frame ..) ?_
      | refine .after (State.modPlacer_frame ..) ?_

theorem State.reserve_frame (s : State) (n : Nat) : Frame s (s.reserve n) := by
  unfold State.reserve
  iterate 2 try first | exact .refl _ | refine .mk' rfl ?_

theorem State.unreserve_frame (s : State) (n : Nat) : Frame s (s.unreserve n) := by
  unfold State.unreserve
  iterate 2 try first | exact .refl _ | refine .mk' rfl ?_

theorem State.dropRecordRequest_frame (s : State) (r : RecordRequest) : Frame s (s.dropRecordRequest r) := by
  unfold State.dropRecordRequest
  iterate 2 try first | exact .refl _ | refine .mk' rfl ?_

theorem State.addRecordRequest_frame (s : State) (r : RecordRequest) : Frame s (s.addRecordRequest r) := by
  unfold State.addRecordRequest
  repeat' split
  all_goals iterate 2 try first | exact .refl _ | refine .mk' rfl ?_

theorem State.claimEntry_frame (s : State) : Frame s s.claimEntry := by
  unfold State.claimEntry
  repeat' split
  all_goals iterate 2 try first | exact .refl _ | refine .mk' rfl ?_

theorem State.unclaimEntry_frame (s : State) (claimed : Bool) : Frame s (s.unclaimEntry claimed) := by
  unfold State.unclaimEntry
  repeat' split
  all_goals iterate 2 try first | exact .refl _ | refine .mk' rfl ?_

theorem State.changeMap_frame (s : State) (cs : List MapChange) : Frame s (s.changeMap cs) := by
  unfold State.changeMap
  iterate 6 try first
    | exact .refl _ | refine .after (State.raiseLive_frame ..) ?_ | refine .after (State.lowerLive_frame ..) ?_
    | refine .after (State.testBands_frame ..) ?_ | refine .mk' rfl ?_

theorem State.takeRun_frame (s : State) : Frame s s.takeRun := by
  unfold State.takeRun
  iterate 2 try first | exact .refl _ | refine .mk' rfl ?_

theorem State.submit_frame (s : State) (op : MediaOp) : Frame s (s.submit op) := by
  unfold State.submit
  repeat' split
  all_goals iterate 2 try first | exact .refl _ | refine .mk' rfl ?_

theorem State.enterWaiting_frame (s : State) (op : MediaOp) : Frame s (s.enterWaiting op) := by
  unfold State.enterWaiting
  iterate 2 try first | exact .refl _ | refine .mk' rfl ?_

theorem State.joinPhaseWait_frame (s : State) (r : RecordRequest) : Frame s (s.joinPhaseWait r) := by
  unfold State.joinPhaseWait
  repeat' split
  all_goals iterate 2 try first | exact .refl _ | refine .mk' rfl ?_

theorem State.leavePhaseWait_frame (s : State) (r : RecordRequest) : Frame s (s.leavePhaseWait r) := by
  unfold State.leavePhaseWait
  iterate 2 try first | exact .refl _ | refine .mk' rfl ?_

theorem State.unwaitChanged_frame (s : State) (st : Stream) (run : Option WaitingRun) : Frame s (s.unwaitChanged st run) := by
  unfold State.unwaitChanged
  iterate 2 try first | exact .refl _ | refine .mk' rfl ?_

theorem State.waitEntry_frame (s : State) (st : Stream) (run : WaitingRun) : Frame s (s.waitEntry st run) := by
  unfold State.waitEntry
  repeat' split
  all_goals iterate 2 try first | exact .refl _ | refine .mk' rfl ?_

theorem State.unwaitEntry_frame (s : State) (st : Stream) : Frame s (s.unwaitEntry st) := by
  unfold State.unwaitEntry
  iterate 2 try first | exact .refl _ | refine .mk' rfl ?_

theorem State.afterGrant_frame (s : State) (g : GrantChoice) : Frame s (s.afterGrant g) := by
  unfold State.afterGrant
  iterate 3 try first | exact .refl _ | refine .mk' rfl ?_

theorem State.modSlot_frame (s : State) (n : Nat) (f : Slot → Slot) : Frame s (s.modSlot n f) := by
  unfold State.modSlot
  iterate 2 try first | exact .refl _ | refine .mk' rfl ?_

theorem State.takeSlot_frame (s : State) (x : Slot) : Frame s (s.takeSlot x) := by
  unfold State.takeSlot
  iterate 2 try first | exact .refl _ | refine .mk' rfl ?_

theorem State.detachSlot_frame (s : State) (x : Slot) : Frame s (s.detachSlot x) := by
  unfold State.detachSlot
  repeat' split
  all_goals iterate 3 try first | exact .refl _ | refine .mk' rfl ?_

theorem State.leavePads_frame (s : State) (x : Slot) : Frame s (s.leavePads x) := by
  unfold State.leavePads
  repeat' split
  all_goals iterate 2 try first | exact .refl _ | refine .after (State.modPlacer_frame ..) ?_

theorem State.releaseSlot_frame (s : State) (x : Slot) : Frame s (s.releaseSlot x) := by
  unfold State.releaseSlot
  iterate 2 try first | exact .refl _ | refine .mk' rfl ?_

theorem State.freeSlot_frame (s : State) (n : Nat) : Frame s (s.freeSlot n) := by
  unfold State.freeSlot
  repeat' split
  all_goals iterate 4 try first
      | exact .refl _ | refine .after (State.detachSlot_frame ..) ?_
      | refine .after (State.releaseSlot_frame ..) ?_ | refine .after (State.leavePads_frame ..) ?_
      | refine .after (State.modSlot_frame ..) ?_

theorem State.freeSlots_frame (s : State) (x0 : List Nat) : Frame s (s.freeSlots x0) := by
  induction x0 generalizing s with
  | nil => exact .refl _
  | cons x xs ih =>
    unfold State.freeSlots
    iterate 3 try first
      | exact .refl _ | refine .after (ih ..) ?_ | refine .after (State.freeSlot_frame ..) ?_

theorem State.pinSlot_frame (s : State) (n : Nat) : Frame s (s.pinSlot n) := by
  unfold State.pinSlot
  iterate 2 try first | exact .refl _ | refine .after (State.modSlot_frame ..) ?_

theorem State.unpinSlot_frame (s : State) (n : Nat) : Frame s (s.unpinSlot n) := by
  unfold State.unpinSlot
  repeat' split
  all_goals iterate 3 try first
      | exact .refl _ | refine .after (State.modSlot_frame ..) ?_ | refine .after (State.freeSlot_frame ..) ?_

theorem State.slotForRead_frame (s : State) (run : Nat) (slot : Nat) : Frame s (s.slotForRead run slot) := by
  unfold State.slotForRead
  try dsimp only
  repeat' split
  all_goals iterate 3 try first | exact .refl _ | refine .after (State.submit_frame ..) ?_ | refine .mk' rfl ?_

theorem State.grantSlot_frame (s : State) (x0 : SlotRequest) : Frame s (s.grantSlot x0) := by
  unfold State.grantSlot
  repeat' split
  all_goals iterate 4 try first
      | exact .refl _ | refine .after (State.takeSlot_frame ..) ?_ | refine .after (State.modCleaner_frame ..) ?_
      | refine .after (State.slotForRead_frame ..) ?_

theorem State.requestSlot_frame (s : State) (k : Account) (r : SlotRequest) : Frame s (s.requestSlot k r) := by
  unfold State.requestSlot
  repeat' split
  all_goals iterate 2 try first | exact .refl _ | refine .after (State.grantSlot_frame ..) ?_ | refine .mk' rfl ?_

theorem State.requestSlots_frame (s : State) (k : Account) (x0 : List SlotRequest) : Frame s (s.requestSlots k x0) := by
  induction x0 generalizing s with
  | nil => exact .refl _
  | cons x xs ih =>
    unfold State.requestSlots
    iterate 3 try first
      | exact .refl _ | refine .after (ih ..) ?_ | refine .after (State.requestSlot_frame ..) ?_

theorem State.grantWaiting_frame (s : State) (k : Account) (x0 : List SlotRequest) : Frame s (s.grantWaiting k x0) := by
  induction x0 generalizing s with
  | nil => exact .mk' rfl (.refl _)
  | cons x xs ih =>
    unfold State.grantWaiting
    repeat' split
    all_goals iterate 3 try first
        | exact .refl _ | refine .after (ih ..) ?_ | refine .after (State.grantSlot_frame ..) ?_
        | refine .mk' rfl ?_

theorem State.withdrawRequests_frame (s : State) (k : Account) (f : SlotRequest → Bool) :
    Frame s (s.withdrawRequests k f) := by
  unfold State.withdrawRequests
  iterate 2 try first | exact .refl _ | refine .mk' rfl ?_

theorem State.unindex_frame (s : State) (x : Nat) : Frame s (s.unindex x) := by
  unfold State.unindex
  iterate 2 try first | exact .refl _ | refine .mk' rfl ?_

theorem State.setIndex_frame (s : State) (x : Nat) (n : Nat) : Frame s (s.setIndex x n) := by
  unfold State.setIndex
  iterate 3 try first | exact .refl _ | refine .mk' rfl ?_

theorem State.extendReservation_frame (s : State) (n : Nat) : Frame s (s.extendReservation n) := by
  unfold State.extendReservation
  repeat' split
  all_goals iterate 3 try first
      | exact .refl _ | refine .after (State.reserve_frame ..) ?_ | refine .after (State.modPlacer_frame ..) ?_

theorem State.supersede_frame (s : State) (n : Nat) : Frame s (s.supersede n) := by
  unfold State.supersede
  repeat' split
  all_goals iterate 4 try first
      | exact .refl _ | refine .after (State.extendReservation_frame ..) ?_ | refine .mk' rfl ?_

theorem State.restartIdle_frame (s : State) (st : Stream) : Frame s (s.restartIdle st) := by
  unfold State.restartIdle
  repeat' split
  all_goals iterate 2 try first | exact .refl _ | refine .after (State.modPlacer_frame ..) ?_

theorem State.enterRun_frame (s : State) (op : MediaOp) : Frame s (s.enterRun op) := by
  unfold State.enterRun
  iterate 2 try first | exact .refl _ | refine .mk' rfl ?_

theorem State.placeSlots_frame (s : State) (band : Nat) (track : Nat) (x0 : Nat) (x1 : List Nat) :
    Frame s (s.placeSlots band track x0 x1) := by
  induction x1 generalizing s x0 with
  | nil => exact .refl _
  | cons x xs ih =>
    unfold State.placeSlots
    iterate 3 try first
      | exact .refl _ | refine .after (ih ..) ?_ | refine .after (State.modSlot_frame ..) ?_

theorem State.noteBuiltSlots_frame (s : State) (x0 : List Slot) : Frame s (s.noteBuiltSlots x0) := by
  induction x0 generalizing s with
  | nil => exact .refl _
  | cons x xs ih =>
    unfold State.noteBuiltSlots
    split
    · exact ih _
    · refine (ih _).after (s.modList_frame _ _ fun c => ?_)
      unfold noteBuilt
      split
      · split <;> rfl
      · rfl

theorem State.leaveRecordWait_frame (s : State) (st : Stream) : Frame s (s.leaveRecordWait st) :=
  (s.dropRecordRequest_frame _).trans (State.modPlacer_frame ..)

theorem State.endBuildWaits_frame (s : State) (st : Stream) : Frame s (s.endBuildWaits st) :=
  ((s.leaveRecordWait_frame st).trans (State.unwaitEntry_frame ..)).trans (State.leavePhaseWait_frame ..)

theorem State.passSuperseded_frame (s : State) (st : Stream) : Frame s (s.passSuperseded st) := State.freeSlots_frame ..

theorem State.buildRun_frame (s : State) (st : Stream) : Frame s (s.buildRun st) := by
  unfold State.buildRun
  split
  · exact .refl _
  · exact ((((((((((State.passSuperseded_frame ..).trans (State.endBuildWaits_frame ..)).trans (State.modBand_frame ..)).trans
      (State.reserve_frame ..)).trans (State.takeRun_frame ..)).trans (State.claimEntry_frame ..)).trans
      (State.placeSlots_frame ..)).trans (State.noteBuiltSlots_frame ..)).trans (State.modPlacer_frame ..)).trans
      (State.enterRun_frame ..))

theorem State.buildFooter_frame (s : State) (st : Stream) : Frame s (s.buildFooter st) := by
  unfold State.buildFooter
  repeat' split
  all_goals iterate 6 try first
      | exact .refl _ | refine .after (State.unwaitEntry_frame ..) ?_ | refine .after (State.modBand_frame ..) ?_
      | refine .after (State.takeRun_frame ..) ?_ | refine .after (State.modPlacer_frame ..) ?_
      | refine .after (State.enterRun_frame ..) ?_

theorem State.buildPad_frame (s : State) (st : Stream) : Frame s (s.buildPad st) := by
  unfold State.buildPad
  repeat' split
  all_goals iterate 6 try first
      | exact .refl _ | refine .after (State.unwaitEntry_frame ..) ?_ | refine .after (State.modBand_frame ..) ?_
      | refine .after (State.takeRun_frame ..) ?_ | refine .after (State.modPlacer_frame ..) ?_
      | refine .after (State.enterRun_frame ..) ?_

theorem State.joinRecordWait_frame (s : State) (st : Stream) : Frame s (s.joinRecordWait st) := by
  unfold State.joinRecordWait
  repeat' split
  all_goals iterate 3 try first
      | exact .refl _ | refine .after (State.addRecordRequest_frame ..) ?_
      | refine .after (State.modPlacer_frame ..) ?_

theorem State.releaseRetained_frame (s : State) (st : Stream) : Frame s (s.releaseRetained st) := by
  unfold State.releaseRetained
  repeat' split
  all_goals iterate 2 try first | exact .refl _ | refine .after (State.freeSlots_frame ..) ?_

theorem State.loseBand_frame (s : State) (st : Stream) : Frame s (s.loseBand st) := by
  unfold State.loseBand
  iterate 3 try first
    | exact .refl _ | refine .after (State.freeSlots_frame ..) ?_ | refine .after (State.modPlacer_frame ..) ?_

theorem State.modSlots_frame (s : State) (f : Slot → Slot) (x0 : List Nat) : Frame s (s.modSlots f x0) := by
  induction x0 generalizing s with
  | nil => exact .refl _
  | cons x xs ih =>
    unfold State.modSlots
    iterate 3 try first
      | exact .refl _ | refine .after (ih ..) ?_ | refine .after (State.modSlot_frame ..) ?_

theorem State.skipRun_frame (s : State) (st : Stream) (run : OutstandingRun) : Frame s (s.skipRun st run) := by
  unfold State.skipRun
  iterate 12 try first
    | exact .refl _ | refine .after (State.modBand_frame ..) ?_ | refine .after (State.unreserve_frame ..) ?_
    | refine .after (State.unclaimEntry_frame ..) ?_ | refine .after (State.modSlots_frame ..) ?_
    | refine .after (State.modPlacer_frame ..) ?_ | refine .after (State.releaseRetained_frame ..) ?_
    | refine .after (State.restartIdle_frame ..) ?_

theorem State.dropFooter_frame (s : State) (st : Stream) : Frame s (s.dropFooter st) := by
  unfold State.dropFooter
  iterate 3 try first
    | exact .refl _ | refine .after (State.modPlacer_frame ..) ?_ | refine .after (State.restartIdle_frame ..) ?_

theorem State.damageRun_frame (s : State) (st : Stream) (run : OutstandingRun) : Frame s (s.damageRun st run) := by
  unfold State.damageRun
  repeat' split
  all_goals iterate 3 try first
      | exact .refl _ | refine .after (State.modBand_frame ..) ?_ | refine .after (State.dropFooter_frame ..) ?_
      | refine .after (State.skipRun_frame ..) ?_

theorem State.regatherFailed_frame (s : State) (st : Stream) (fails : List Nat) :
    Frame s (s.regatherFailed st fails) := by
  unfold State.regatherFailed
  iterate 3 try first
    | exact .refl _ | refine .after (State.modSlots_frame ..) ?_ | refine .after (State.modPlacer_frame ..) ?_

theorem State.requestPad_frame (s : State) (st : Stream) (owner : PadOwner) (slots : List Nat) :
    Frame s (s.requestPad st owner slots) := by
  unfold State.requestPad
  repeat' split
  all_goals iterate 2 try first | exact .refl _ | refine .after (State.modPlacer_frame ..) ?_

theorem State.withdrawPads_frame (s : State) (f : PadOwner → Bool) (x0 : List Stream) :
    Frame s (s.withdrawPads f x0) := by
  induction x0 generalizing s with
  | nil => exact .refl _
  | cons x xs ih =>
    unfold State.withdrawPads
    iterate 3 try first
      | exact .refl _ | refine .after (ih ..) ?_ | refine .after (State.modPlacer_frame ..) ?_

theorem State.freeHeads_frame (s : State) (x0 : List Nat) : Frame s (s.freeHeads x0) := by
  induction x0 generalizing s with
  | nil => exact .refl _
  | cons x xs ih =>
    unfold State.freeHeads
    repeat' split
    all_goals iterate 3 try first
        | exact .refl _ | refine .after (ih ..) ?_ | refine .after (State.freeSlot_frame ..) ?_

theorem State.placerBand_frame (s : State) (st : Stream) : Frame s (s.placerBand st) := by
  unfold State.placerBand
  repeat' split
  all_goals iterate 3 try first
      | exact .refl _ | refine .after (State.withdrawBand_frame ..) ?_
      | refine .after (State.modPlacer_frame ..) ?_ | refine .after (State.askBand_frame ..) ?_

theorem State.placerWaits_frame (s : State) (st : Stream) : Frame s (s.placerWaits st) := by
  unfold State.placerWaits
  try dsimp only
  repeat' split
  all_goals iterate 4 try first
      | exact .refl _ | refine .after (State.passSuperseded_frame ..) ?_ | refine .after (State.leaveRecordWait_frame ..) ?_
      | refine .after (State.leavePhaseWait_frame ..) ?_ | refine .after (State.unwaitChanged_frame ..) ?_

theorem State.placerReact_frame (s : State) (st : Stream) : Frame s (s.placerReact st) := by
  unfold State.placerReact
  iterate 6 try first
    | exact .refl _ | refine .after (State.freeHeads_frame ..) ?_ | refine .after (State.placerBand_frame ..) ?_
    | refine .after (State.modPlacer_frame ..) ?_ | refine .after (State.placerWaits_frame ..) ?_

theorem State.placersReact_frame (s : State) (x0 : List Stream) : Frame s (s.placersReact x0) := by
  induction x0 generalizing s with
  | nil => exact .refl _
  | cons x xs ih =>
    unfold State.placersReact
    iterate 3 try first
      | exact .refl _ | refine .after (ih ..) ?_ | refine .after (State.placerReact_frame ..) ?_

theorem State.finish_frame (s : State) (p : Port) (id : Nat) (d : Completion) : Frame s (s.finish p id d) := by
  exact s.modCommand_frame p id _ fun _ => rfl

theorem State.finishAll_frame (s : State) (d : Completion) (x0 : List (Port × Nat)) : Frame s (s.finishAll d x0) := by
  induction x0 generalizing s with
  | nil => exact .refl _
  | cons x xs ih =>
    unfold State.finishAll
    iterate 3 try first
      | exact .refl _ | refine .after (ih ..) ?_ | refine .after (State.finish_frame ..) ?_

theorem State.setWork_frame (s : State) (p : Port) (id : Nat) (w : Work) : Frame s (s.setWork p id w) := by
  exact s.modCommand_frame p id _ fun _ => rfl

theorem State.sendPush_frame (s : State) (p : Port) (cmd : Nat) (index : Nat) (pieces : List Word64)
    (block : Block) (slot : Option Nat) : Frame s (s.sendPush p cmd index pieces block slot) := by
  unfold State.sendPush
  iterate 2 try first
    | exact .refl _
    | refine .after (State.modPort_frame _ _ _ ⟨rfl, rfl, rfl, rfl, rfl, rfl, rfl, rfl, rfl, rfl, rfl, rfl, rfl, rfl, rfl⟩) ?_

theorem State.endPush_frame (s : State) (x : Push) : Frame s (s.endPush x) := by
  unfold State.endPush
  repeat' split
  all_goals iterate 2 try first
      | exact .refl _ | refine .after (State.freeSlot_frame ..) ?_ | refine .after (State.unpinSlot_frame ..) ?_

theorem State.endPushes_frame (s : State) (x0 : List Push) : Frame s (s.endPushes x0) := by
  induction x0 generalizing s with
  | nil => exact .refl _
  | cons x xs ih =>
    unfold State.endPushes
    iterate 3 try first
      | exact .refl _ | refine .after (ih ..) ?_ | refine .after (State.endPush_frame ..) ?_

theorem State.releaseReads_frame (s : State) (x0 : List (Nat × List Nat)) : Frame s (s.releaseReads x0) := by
  induction x0 generalizing s with
  | nil => exact .refl _
  | cons x xs ih =>
    unfold State.releaseReads
    iterate 4 try first
      | exact .refl _ | refine .after (ih ..) ?_ | refine .after (State.freeSlots_frame ..) ?_
      | refine .after (State.dropRef_frame ..) ?_

theorem State.withdrawForming_frame (s : State) (p : Port) : Frame s (s.withdrawForming p) := by
  unfold State.withdrawForming
  iterate 4 try first
    | exact .refl _ | refine .after (State.releaseReads_frame ..) ?_ | refine .mk' rfl ?_

theorem State.withdrawQueued_frame (s : State) (p : Port) : Frame s (s.withdrawQueued p) := by
  unfold State.withdrawQueued
  iterate 3 try first
    | exact .refl _ | refine .after (State.releaseReads_frame ..) ?_ | refine .mk' rfl ?_

theorem State.abandonPulls_frame (s : State) (p : Port) (f : Nat → Bool) : Frame s (s.abandonPulls p f) := by
  unfold State.abandonPulls
  iterate 6 try first
    | exact .refl _ | refine .after (State.withdrawRequests_frame ..) ?_
    | refine .after (State.freeSlots_frame ..) ?_
    | refine .after (State.modPort_frame _ _ _ ⟨rfl, rfl, rfl, rfl, rfl, rfl, rfl, rfl, rfl, rfl, rfl, rfl, rfl, rfl, rfl⟩) ?_

theorem State.withdrawTrims_frame (s : State) (p : Port) : Frame s (s.withdrawTrims p) := by
  unfold State.withdrawTrims
  iterate 2 try first | exact .refl _ | refine .mk' rfl ?_

theorem State.leaveRecovery_frame (s : State) (p : Port) : Frame s (s.leaveRecovery p) := by
  unfold State.leaveRecovery
  iterate 2 try first | exact .refl _ | refine .mk' rfl ?_

theorem State.issueCheckpointWrite_frame (s : State) : Frame s s.issueCheckpointWrite := by
  unfold State.issueCheckpointWrite
  try dsimp only
  repeat' split
  all_goals iterate 3 try first | exact .refl _ | refine .after (State.submit_frame ..) ?_ | refine .mk' rfl ?_

theorem State.takeWatermark_frame (s : State) : Frame s s.takeWatermark := by
  unfold State.takeWatermark
  iterate 3 try first
    | exact .refl _ | refine .after (State.issueCheckpointWrite_frame ..) ?_ | refine .mk' rfl ?_

theorem State.watermark_frame (s : State) : Frame s s.watermark := by
  unfold State.watermark
  repeat' split
  all_goals iterate 2 try first | exact .refl _ | refine .after (State.takeWatermark_frame ..) ?_

theorem State.startCheckpoint_frame (s : State) (joined : List (Port × Nat)) : Frame s (s.startCheckpoint joined) := by
  unfold State.startCheckpoint
  iterate 3 try first | exact .refl _ | refine .after (State.watermark_frame ..) ?_ | refine .mk' rfl ?_

theorem State.requestCheckpoint_frame (s : State) (cmd : List (Port × Nat)) : Frame s (s.requestCheckpoint cmd) := by
  unfold State.requestCheckpoint
  repeat' split
  all_goals iterate 2 try first
      | exact .refl _ | refine .after (State.startCheckpoint_frame ..) ?_ | refine .mk' rfl ?_

theorem State.appendRecord_frame (s : State) (k : JournalKind) : Frame s (s.appendRecord k) := by
  unfold State.appendRecord
  try dsimp only
  repeat' split
  all_goals iterate 3 try first
      | exact .refl _ | refine .after (State.requestCheckpoint_frame ..) ?_ | refine .mk' rfl ?_

theorem State.issueJournalWrite_frame (s : State) : Frame s s.issueJournalWrite := by
  unfold State.issueJournalWrite
  repeat' split
  all_goals iterate 2 try first | exact .refl _ | refine .after (State.submit_frame ..) ?_

theorem State.startJournalWrite_frame (s : State) (requesters : List JournalRequester) :
    Frame s (s.startJournalWrite requesters) := by
  unfold State.startJournalWrite
  iterate 3 try first
    | exact .refl _ | refine .after (State.issueJournalWrite_frame ..) ?_ | refine .mk' rfl ?_

theorem State.answerCommand_frame (s : State) (ok : Bool) (p : Port) (id : Nat) :
    Frame s (s.answerCommand ok p id) := by
  unfold State.answerCommand
  repeat' split
  all_goals iterate 2 try first
      | exact .refl _ | refine .after (State.setWork_frame ..) ?_ | refine .after (State.finish_frame ..) ?_

theorem State.answerJournal_frame (s : State) (ok : Bool) (x0 : List JournalRequester) :
    Frame s (s.answerJournal ok x0) := by
  induction x0 generalizing s with
  | nil => exact .refl _
  | cons x xs ih =>
    cases x with
    | command p id => exact (ih _).after (s.answerCommand_frame ..)
    | checkpoint => exact ih _

theorem State.requestJournal_frame (s : State) (requesters : List JournalRequester) :
    Frame s (s.requestJournal requesters) := by
  unfold State.requestJournal
  try dsimp only
  repeat' split
  all_goals iterate 2 try first
      | exact .refl _ | refine .after (State.answerJournal_frame ..) ?_
      | refine .after (State.startJournalWrite_frame ..) ?_ | refine .mk' rfl ?_

theorem State.recordRetirement_frame (s : State) (b : Nat) : Frame s (s.recordRetirement b) := by
  unfold State.recordRetirement
  repeat' split
  all_goals iterate 3 try first
      | exact .refl _ | refine .after (State.appendRecord_frame ..) ?_
      | refine .after (State.requestJournal_frame ..) ?_ | refine .mk' rfl ?_

theorem State.appendHeld_frame (s : State) (x0 : List Nat) : Frame s (s.appendHeld x0) := by
  induction x0 generalizing s with
  | nil => exact .refl _
  | cons x xs ih =>
    unfold State.appendHeld
    repeat' split
    all_goals iterate 4 try first
        | exact .refl _ | refine .after (ih ..) ?_ | refine .after (State.appendRecord_frame ..) ?_
        | refine .mk' rfl ?_

theorem State.releaseTest_frame (s : State) : Frame s s.releaseTest := by
  unfold State.releaseTest
  split
  · exact .refl _
  · split
    · split
      · exact (s.emptyTheBand_frame _).trans (.mk' rfl (.refl _))
      · exact .mk' rfl (.refl _)
    · exact .refl _

theorem State.supersedeAll_frame (s : State) (x0 : List Nat) : Frame s (s.supersedeAll x0) := by
  induction x0 generalizing s with
  | nil => exact .refl _
  | cons x xs ih =>
    unfold State.supersedeAll
    iterate 3 try first
      | exact .refl _ | refine .after (ih ..) ?_ | refine .after (State.supersede_frame ..) ?_

theorem State.applyTrim_frame (s : State) (t : TrimRequest) : Frame s (s.applyTrim t) := by
  unfold State.applyTrim
  dsimp only
  have h : Frame s ((s.dropRecordRequest (.trim t.port t.cmd)).leavePhaseWait (.trim t.port t.cmd)).takeRun :=
    ((s.dropRecordRequest_frame _).trans (State.leavePhaseWait_frame ..)).trans (State.takeRun_frame _)
  generalize ((s.dropRecordRequest (.trim t.port t.cmd)).leavePhaseWait (.trim t.port t.cmd)).takeRun = u at h ⊢
  have h4 : Frame s _ := ((((h.mk' rfl : Frame s { u with map := { u.map with trims := u.map.trims.filter fun x => x ≠ t } }).trans
    (State.supersedeAll_frame _ (s.trimSlots t))).trans (State.changeMap_frame _ [.remove t.first t.last])).trans
    (State.appendRecord_frame _ (.trim t.first (t.last + 1 - t.first) s.map.runCounter)))
  split
  · exact h4
  · split
    · exact h4.trans ((State.setWork_frame ..).trans (State.requestJournal_frame ..))
    · exact h4.trans (State.finish_frame ..)

/-- All that the wait of a trim does: it joins the record wait list, or waits for an entry place, or neither. -/
theorem State.awaitTrim_eq (s : State) (t : TrimRequest) :
    let r : RecordRequest := .trim t.port t.cmd
    let short : Prop := s.map.available < s.trimNeed t
    let noEntry : Prop := ¬short ∧ s.trimPlaces = true ∧ s.map.entryFree r = false
    s.awaitTrim t = { s with map := { s.map with
      recordWait := s.map.recordWait ++ if short ∧ r ∉ s.map.recordWait then [r] else []
      phaseWait := s.map.phaseWait ++ if noEntry ∧ r ∉ s.map.phaseWait then [r] else [] } } := by
  by_cases h : s.map.available < s.trimNeed t
  · by_cases m : RecordRequest.trim t.port t.cmd ∈ s.map.recordWait <;>
      simp [State.awaitTrim, State.addRecordRequest, h, m]
  · by_cases e : s.trimPlaces = true ∧ s.map.entryFree (.trim t.port t.cmd) = false
    · by_cases m : RecordRequest.trim t.port t.cmd ∈ s.map.phaseWait <;>
        simp [State.awaitTrim, State.joinPhaseWait, h, e.1, e.2, m]
    · have : (s.trimPlaces && !s.map.entryFree (.trim t.port t.cmd)) = false := by simpa using e
      simp [State.awaitTrim, h, this, e]
theorem State.awaitTrim_frame (s : State) (t : TrimRequest) : Frame s (s.awaitTrim t) := by
  unfold State.awaitTrim
  repeat' split
  all_goals first | exact .refl _ | exact State.addRecordRequest_frame .. | exact State.joinPhaseWait_frame ..

theorem State.tryTrim_frame (s : State) (p : Port) (cmd : Nat) : Frame s (s.tryTrim p cmd) := by
  unfold State.tryTrim
  repeat' split
  all_goals first | exact .refl _ | exact State.applyTrim_frame .. | exact State.awaitTrim_frame ..

theorem State.takeVictim_frame (s : State) (b : Nat) (k : VictimKind) : Frame s (s.takeVictim b k) := by
  unfold State.takeVictim
  repeat' split
  all_goals iterate 2 try first | exact .refl _ | refine .after (State.modCleaner_frame ..) ?_

theorem State.chooseVictim_frame (s : State) : Frame s s.chooseVictim := by
  unfold State.chooseVictim
  repeat' split
  all_goals iterate 2 try first
      | exact .refl _ | refine .after (State.takeVictim_frame ..) ?_
      | refine .after (State.modCleaner_frame ..) ?_

theorem State.endScan_frame (s : State) (t : TableScan) : Frame s (s.endScan t) := by
  unfold State.endScan
  repeat' split
  all_goals iterate 3 try first
      | exact .refl _ | refine .after (State.modCleaner_frame ..) ?_
      | refine .after (State.chooseVictim_frame ..) ?_ | refine .after (State.modBand_frame ..) ?_
      | refine .after (State.takeVictim_frame ..) ?_

theorem State.endVictim_frame (s : State) : Frame s s.endVictim := by
  unfold State.endVictim
  try dsimp only
  repeat' split
  all_goals iterate 3 try first
      | exact .refl _ | refine .after (State.modCleaner_frame ..) ?_
      | refine .after (State.chooseVictim_frame ..) ?_

theorem State.withdrawDrain_frame (s : State) : Frame s s.withdrawDrain := by
  unfold State.withdrawDrain
  iterate 2 try first | exact .refl _ | refine .after (State.withdrawPads_frame ..) ?_

theorem State.retireVictim_frame (s : State) : Frame s s.retireVictim := by
  unfold State.retireVictim
  split
  · split
    · exact .refl _
    · rename_i b _ _ _ _
      dsimp only
      have h := ((State.modBand_frame s b fun y => { y with state := .retired }).trans (State.recordRetirement_frame _ b)).trans
        ((State.withdrawDrain_frame _).trans (State.modCleaner_frame _ fun c => { c with victim := some (b, .retired), drain := false }))
      split
      · exact .refl _
      · split
        · exact h
        · exact h.trans (State.modCleaner_frame ..)
  · exact .refl _
  · exact .refl _

theorem State.awaitRetired_frame (s : State) (b : Nat) : Frame s (s.awaitRetired b) := by
  unfold State.awaitRetired
  try dsimp only
  repeat' split
  all_goals iterate 3 try first
      | exact .refl _ | refine .after (State.modCleaner_frame ..) ?_
      | refine .after (State.chooseVictim_frame ..) ?_

theorem State.issueScanRead_frame (s : State) (b : Nat) (x : ScanPlan) : Frame s (s.issueScanRead b x) := by
  unfold State.issueScanRead
  iterate 4 try first
    | exact .refl _ | refine .after (State.addRef_frame ..) ?_ | refine .after (State.modCleaner_frame ..) ?_
    | refine .after (State.submit_frame ..) ?_

theorem State.formCleanerRun_frame (s : State) (b : Nat) : Frame s (s.formCleanerRun b) := by
  unfold State.formCleanerRun
  repeat' split
  all_goals iterate 6 try first
      | exact .refl _ | refine .after (State.addRef_frame ..) ?_ | refine .after (State.requestSlots_frame ..) ?_
      | refine .after (State.modCleaner_frame ..) ?_ | refine .mk' rfl ?_

theorem State.recheckPass_frame (s : State) (b : Nat) : Frame s (s.recheckPass b) := by
  unfold State.recheckPass
  iterate 2 try first | exact .refl _ | refine .after (State.modCleaner_frame ..) ?_

theorem State.requestDrain_frame (s : State) : Frame s s.requestDrain := by
  unfold State.requestDrain
  iterate 3 try first
    | exact .refl _ | refine .after (State.requestPad_frame ..) ?_ | refine .after (State.modCleaner_frame ..) ?_

theorem State.endPass_frame (s : State) (b : Nat) : Frame s (s.endPass b) := by
  unfold State.endPass
  repeat' split
  all_goals iterate 3 try first
      | exact .refl _ | refine .after (State.modCleaner_frame ..) ?_ | refine .after (State.endVictim_frame ..) ?_

theorem State.selectingStep_frame (s : State) : Frame s s.selectingStep := by
  unfold State.selectingStep
  repeat' split
  all_goals iterate 2 try first
      | exact .refl _ | refine .after (State.chooseVictim_frame ..) ?_
      | refine .after (State.modCleaner_frame ..) ?_

theorem State.relocatingStep_frame (s : State) (b : Nat) (k : VictimKind) : Frame s (s.relocatingStep b k) := by
  unfold State.relocatingStep
  repeat' split
  all_goals iterate 3 try first
      | exact .refl _ | refine .after (State.formCleanerRun_frame ..) ?_
      | refine .after (State.issueScanRead_frame ..) ?_ | refine .after (State.modCleaner_frame ..) ?_
      | refine .after (State.recheckPass_frame ..) ?_ | refine .after (State.endPass_frame ..) ?_

theorem State.drainingStep_frame (s : State) (b : Nat) (k : VictimKind) (r : BandRecord) :
    Frame s (s.drainingStep b k r) := by
  unfold State.drainingStep
  split
  · exact State.endPass_frame ..
  · split
    · split
      · exact .refl _
      · dsimp only
        have h1 := s.modCleaner_frame fun c => { c with state := .releasing }
        generalize s.modCleaner (fun c => { c with state := .releasing }) = u at h1 ⊢
        have h : Frame s { u with bands := { u.bands with release := some b, retest := true } } := h1.mk' rfl
        split
        · exact h
        · exact h.trans (State.requestJournal_frame ..)
    · split
      · exact .refl _
      · split
        · exact State.requestDrain_frame _
        · exact (State.retireVictim_frame _).trans (State.modCleaner_frame ..)

theorem State.releasingStep_frame (s : State) : Frame s s.releasingStep := by
  unfold State.releasingStep
  dsimp only
  repeat' split
  all_goals iterate 3 try first
      | exact .refl _ | refine .after (State.releaseTest_frame ..) ?_
      | refine .after (State.endVictim_frame ..) ?_ | refine .after (State.requestJournal_frame ..) ?_

theorem State.cleanerStep_frame (s : State) : Frame s s.cleanerStep := by
  unfold State.cleanerStep
  try dsimp only
  repeat' split
  all_goals iterate 3 try first
      | exact .refl _ | refine .after (State.modCleaner_frame ..) ?_
      | refine .after (State.selectingStep_frame ..) ?_ | refine .after (State.relocatingStep_frame ..) ?_
      | refine .after (State.drainingStep_frame ..) ?_ | refine .after (State.releasingStep_frame ..) ?_

theorem State.cleanerReact_frame (s : State) : Frame s s.cleanerReact := by
  unfold State.cleanerReact
  generalize cleanerTransitions = n
  induction n generalizing s with
  | zero => exact .refl _
  | succ n ih => exact (ih _).after s.cleanerStep_frame

theorem State.scanReadDone_frame (s : State) (op : MediaOp) (blocks : List (Option MediaBlock)) :
    Frame s (s.scanReadDone op blocks) := by
  unfold State.scanReadDone
  try dsimp only
  repeat' split
  all_goals iterate 4 try first
      | exact .refl _ | refine .after (State.dropRef_frame ..) ?_ | refine .after (State.modCleaner_frame ..) ?_

theorem State.outOfRelocation_frame (s : State) : Frame s s.outOfRelocation := by
  unfold State.outOfRelocation
  iterate 2 try first | exact .refl _ | refine .after (State.modCleaner_frame ..) ?_

theorem State.takeRelocated_frame (s : State) (b : Nat) (o : Nat) (n : Nat) (x : Option MediaBlock) :
    Frame s (s.takeRelocated b o n x) := by
  unfold State.takeRelocated
  try dsimp only
  repeat' split
  all_goals iterate 4 try first
      | exact .refl _ | refine .after (State.modSlot_frame ..) ?_ | refine .after (State.modPlacer_frame ..) ?_
      | refine .after (State.freeSlot_frame ..) ?_ | refine .after (State.outOfRelocation_frame ..) ?_
      | refine .after (State.retireVictim_frame ..) ?_

theorem State.takeRelocatedAll_frame (s : State) (b : Nat) (x0 : Nat) (x1 : List Nat) (x2 : List
    (Option MediaBlock)) : Frame s (s.takeRelocatedAll b x0 x1 x2) := by
  induction x1 generalizing s x0 x2 with
  | nil => unfold State.takeRelocatedAll; exact .refl _
  | cons n ns ih =>
    cases x2 with
    | nil =>
      exact (ih _ _ _).after ((State.freeSlot_frame ..).trans ((State.outOfRelocation_frame _).trans (State.modCleaner_frame ..)))
    | cons x xs => exact (ih _ _ _).after (State.takeRelocated_frame ..)

theorem State.cleanerReadDone_frame (s : State) (op : MediaOp) (blocks : List (Option MediaBlock)) :
    Frame s (s.cleanerReadDone op blocks) := by
  unfold State.cleanerReadDone
  dsimp only
  split
  all_goals iterate 6 try first
    | exact .refl _ | refine .after (State.dropRef_frame ..) ?_ | refine .after (State.modCleaner_frame ..) ?_
    | refine .after (State.takeRelocatedAll_frame ..) ?_ | refine .after (State.restartIdle_frame ..) ?_

theorem State.requestNextPull_frame (s : State) (p : Port) (id : Nat) : Frame s (s.requestNextPull p id) := by
  unfold State.requestNextPull
  repeat' split
  all_goals iterate 3 try first
      | exact .refl _ | refine .after (State.setWork_frame ..) ?_ | refine .after (State.requestSlot_frame ..) ?_

theorem State.countAccepted_frame (s : State) (p : Port) (id : Nat) : Frame s (s.countAccepted p id) := by
  unfold State.countAccepted
  repeat' split
  all_goals iterate 3 try first
      | exact .refl _ | refine .after (State.setWork_frame ..) ?_ | refine .after (State.requestPad_frame ..) ?_
      | refine .after (State.finish_frame ..) ?_

theorem State.acceptSlot_frame (s : State) (p : Port) (x : Slot) : Frame s (s.acceptSlot p x) := by
  have h3 (u : State) (h1 : Frame s u) : Frame s (((u.setIndex x.lbn x.number).modSlot x.number
      fun y => { y with state := .gathered, superseded := false }).modPort p
      fun e => { e with pulled := e.pulled.filter fun n => decide (n ≠ x.number) }) :=
    h1.trans (((State.setIndex_frame u x.lbn x.number).trans (State.modSlot_frame ..)).trans
      (State.modPort_frame _ p _ ⟨rfl, rfl, rfl, rfl, rfl, rfl, rfl, rfl, rfl, rfl, rfl, rfl, rfl, rfl, rfl⟩))
  unfold State.acceptSlot
  cases s.indexed x.lbn with
  | none =>
    cases x.origin <;> cases x.command
    · exact (h3 _ (.refl _)).trans (State.modPlacer_frame ..)
    · exact (h3 _ (.refl _)).trans ((State.modPlacer_frame ..).trans (State.countAccepted_frame ..))
    · exact h3 _ (.refl _)
    · exact (h3 _ (.refl _)).trans (State.countAccepted_frame ..)
  | some old =>
    cases x.origin <;> cases x.command
    · exact (h3 _ (s.supersede_frame old)).trans (State.modPlacer_frame ..)
    · exact (h3 _ (s.supersede_frame old)).trans ((State.modPlacer_frame ..).trans (State.countAccepted_frame ..))
    · exact h3 _ (s.supersede_frame old)
    · exact (h3 _ (s.supersede_frame old)).trans (State.countAccepted_frame ..)

theorem State.tryAccept_frame (s : State) (p : Port) : Frame s (s.tryAccept p) := by
  unfold State.tryAccept
  repeat' split
  all_goals iterate 3 try first
      | exact .refl _ | refine .after (State.acceptSlot_frame ..) ?_
      | refine .after (State.dropRecordRequest_frame ..) ?_ | refine .after (State.addRecordRequest_frame ..) ?_

theorem State.acceptFreed_frame (s : State) (p : Port) (old : Nat) : Frame s (s.acceptFreed p old) := by
  unfold State.acceptFreed
  repeat' split
  all_goals iterate 3 try first
      | exact .refl _ | refine .after (State.dropRecordRequest_frame ..) ?_
      | refine .after (State.acceptSlot_frame ..) ?_

theorem State.acceptReact_frame (s : State) (x0 : List RecordRequest) : Frame s (s.acceptReact x0) := by
  induction x0 generalizing s with
  | nil => exact .refl _
  | cons x xs ih =>
    cases x with
    | accept p old => exact (ih _).after (s.acceptFreed_frame ..)
    | placer st => exact ih _
    | trim p c => exact ih _

theorem State.endWrite_frame (s : State) (st : Status) (p : Port) (id : Nat) : Frame s (s.endWrite st p id) := by
  unfold State.endWrite
  split
  · exact .refl _
  · exact ((State.finish_frame ..).trans (State.freeSlots_frame ..)).trans
      ((State.abandonPulls_frame ..).trans (State.withdrawPads_frame ..))

theorem State.endWrites_frame (s : State) (st : Status) (x0 : List (Port × Nat)) : Frame s (s.endWrites st x0) := by
  induction x0 generalizing s with
  | nil => exact .refl _
  | cons x xs ih =>
    unfold State.endWrites
    iterate 3 try first
      | exact .refl _ | refine .after (ih ..) ?_ | refine .after (State.endWrite_frame ..) ?_

theorem State.waitForRoom_frame (s : State) (st : Stream) : Frame s (s.waitForRoom st) := by
  unfold State.waitForRoom
  split
  · exact .refl _
  · split
    · exact (s.passSuperseded_frame st).trans (State.waitEntry_frame ..)
    · exact s.waitEntry_frame ..

/-- A build that keeps the frame keeps it also where it waits for room. -/
theorem State.buildOrWait_frame (s : State) (st : Stream) (build : State → State) (h : Frame s (build s)) :
    Frame s (s.buildOrWait st build) := by
  unfold State.buildOrWait
  split
  · exact h
  · exact s.waitForRoom_frame st

theorem State.waitForItems_frame (s : State) (st : Stream) : Frame s (s.waitForItems st) := by
  unfold State.waitForItems
  dsimp only
  split
  · refine (s.passSuperseded_frame st).trans ?_
    repeat' split
    all_goals first | exact .refl _ | exact State.joinRecordWait_frame .. | exact State.joinPhaseWait_frame ..
  · exact .refl _

theorem State.tryRun_frame (s : State) (st : Stream) : Frame s (s.tryRun st) := by
  unfold State.tryRun
  split
  · exact s.buildOrWait_frame st _ (s.buildRun_frame st)
  · exact s.waitForItems_frame st

theorem State.grantPlacer_frame (s : State) (st : Stream) : Frame s (s.grantPlacer st) := by
  unfold State.grantPlacer
  split
  · exact (s.leaveRecordWait_frame st).trans (State.tryRun_frame ..)
  · exact .refl _

theorem State.grantAccept_frame (s : State) (p : Port) (old : Nat) : Frame s (s.grantAccept p old) := by
  unfold State.grantAccept
  repeat' split
  all_goals iterate 3 try first
      | exact .refl _ | refine .after (State.dropRecordRequest_frame ..) ?_
      | refine .after (State.acceptSlot_frame ..) ?_

theorem State.grantTrim_frame (s : State) (p : Port) (cmd : Nat) : Frame s (s.grantTrim p cmd) := by
  unfold State.grantTrim
  split
  · exact (s.dropRecordRequest_frame _).trans (State.tryTrim_frame ..)
  · exact .refl _

theorem State.grantRecords_frame (s : State) (x0 : List RecordRequest) : Frame s (s.grantRecords x0) := by
  induction x0 generalizing s with
  | nil => exact .refl _
  | cons x xs ih =>
    unfold State.grantRecords
    repeat' split
    all_goals iterate 3 try first
        | exact .refl _ | refine .after (ih ..) ?_ | refine .after (State.grantPlacer_frame ..) ?_
        | refine .after (State.grantAccept_frame ..) ?_ | refine .after (State.grantTrim_frame ..) ?_

theorem State.commandsReact_frame (s : State) (p : Port) : Frame s (s.commandsReact p) := by
  refine s.modList_frame p _ fun c => ?_
  unfold State.settleCommand
  split
  · split <;> rfl
  · rfl

theorem State.react_frame (s : State) : Frame s s.react := by
  have walk : ∀ (u : State) (p : Port), Frame u (u.modPort p walkOn) := fun u p => by
    refine u.modPort_frame p _ ?_
    unfold walkOn
    split
    · split <;> exact ⟨rfl, rfl, rfl, rfl, rfl, rfl, rfl, rfl, rfl, rfl, rfl, rfl, rfl, rfl, rfl⟩
    · exact .refl _
    · exact .refl _
  exact (((((s.acceptReact_frame _).trans (State.releaseTest_frame _)).trans (State.placersReact_frame ..)).trans
    ((State.cleanerReact_frame _).trans (State.placersReact_frame ..))).trans
    ((State.commandsReact_frame ..).trans (State.commandsReact_frame ..))).trans ((walk ..).trans (walk ..))

end Sys2Proof.Machine
end

