-- ==== Sys2Proof/Laws/Quiet.lean ====
section
/-! SUPPORT. The relation `Quiet`, and that the operations on the channel, the commands and the Recovery Unit keep it. -/

namespace Sys2Proof.Machine

/-- What all operations leave alone but those that move the part state: the queue of commands, the record in force and its
check word, and the part state. No CONFIG CLOSE comes under way, no in-flight list grows, a right EMPTY count stays right, and in
FAULTED the Cleaner's state stays as it stands. -/
structure Quiet (s t : State) : Prop where
  pending : t.pending = s.pending
  inForce : t.geo.inForce = s.geo.inForce
  word : t.geo.checkWord = s.geo.checkWord
  part : t.recovery.part = s.recovery.part
  close : t.recovery.close.isSome → s.recovery.close.isSome
  counted : s.EmptyCounted → t.EmptyCounted
  lists : ∀ p, (t.port p).list.length ≤ (s.port p).list.length
  cleaner : s.recovery.part = .faulted → t.cleaner = s.cleaner

theorem Quiet.refl (s : State) : Quiet s s := ⟨rfl, rfl, rfl, rfl, id, id, fun _ => Nat.le_refl _, fun _ => rfl⟩

theorem Quiet.trans {s t u : State} (h : Quiet s t) (k : Quiet t u) : Quiet s u :=
  ⟨k.1.trans h.1, k.2.trans h.2, k.3.trans h.3, k.4.trans h.4, fun c => h.5 (k.5 c), fun c => k.6 (h.6 c),
    fun p => Nat.le_trans (k.7 p) (h.7 p), fun x => (k.8 (h.4.trans x)).trans (h.8 x)⟩

theorem Quiet.after {s i t : State} (k : Quiet i t) (h : Quiet s i) : Quiet s t := h.trans k

theorem Frame.quiet {s t : State} (h : Frame s t) : Quiet s t :=
  ⟨h.pending, by rw [h.geo], by rw [h.geo], h.part, by rw [h.close]; exact id, h.counted,
    fun p => by
      have := congrArg List.length (h.ports p).keys
      simp only [List.length_map] at this
      exact Nat.le_of_eq this,
    h.cleaner⟩

theorem Quiet.afterF {s i t : State} (k : Frame i t) (h : Quiet s i) : Quiet s t := h.trans k.quiet

theorem Quiet.mk' {s i : State} {geo : GeometryUnit} {bands : BandTable} {map : MapUnit} {staging : Staging}
    {placers : PerStream Placer} {media : MediaArbiter} {seq : Sequencer} {cleaner : Cleaner} {recovery : Recovery}
    {ports : PerPort PortEngine} {notices : PerPort NoticeUnit} {pending : List Instr}
    (e : (pending, geo.inForce, geo.checkWord, recovery.part, recovery.close, bands.records, bands.emptyCount, ports,
        cleaner)
      = (i.pending, i.geo.inForce, i.geo.checkWord, i.recovery.part, i.recovery.close, i.bands.records, i.bands.emptyCount,
        i.ports, i.cleaner)) (h : Quiet s i) :
    Quiet s ⟨geo, bands, map, staging, placers, media, seq, cleaner, recovery, ports, notices, pending⟩ := by
  simp only [Prod.mk.injEq] at e
  obtain ⟨h0, h1, h2, h3, h4, h5, h6, h7, h8⟩ := e
  exact h.trans ⟨h0, h1, h2, h3, by rw [h4]; exact id, by unfold State.EmptyCounted; simp only [h5, h6]; exact id,
    fun p => by unfold State.port; simp only [h7]; exact Nat.le_refl _, fun _ => h8⟩

theorem State.modPort_quiet (s : State) (p : Port) (f : PortEngine → PortEngine)
    (h : (f (s.port p)).list.length ≤ (s.port p).list.length) : Quiet s (s.modPort p f) := by
  refine ⟨rfl, rfl, rfl, rfl, id, id, fun q => ?_, fun _ => rfl⟩
  cases p <;> cases q <;> first | exact h | exact Nat.le_refl _

theorem State.buildDue_frame (s : State) (st : Stream) (t : State) (h : s.buildDue st = some t) : Frame s t := by
  unfold State.buildDue at h
  split at h
  · cases h
  · split at h
    · cases h; exact s.buildFooter_frame st
    · split at h
      · cases h; exact s.buildPad_frame st
      · split at h
        · cases h; exact s.buildRun_frame st
        · cases h

theorem State.finishWritePhase_quiet (s : State) : Quiet s (s.finishWritePhase) := by
  unfold State.finishWritePhase
  iterate 2 try first | exact .refl _ | refine .mk' rfl ?_

theorem State.discardInFlight_quiet (s : State) (p : Port) : Quiet s (s.discardInFlight p) := by
  unfold State.discardInFlight
  iterate 2 try first | exact .refl _ | refine .mk' rfl ?_

theorem State.withdrawReads_quiet (s : State) (p : Port) : Quiet s (s.withdrawReads p) := by
  unfold State.withdrawReads
  iterate 4 try first
    | exact .refl _ | refine .afterF (State.withdrawForming_frame ..) ?_
    | refine .afterF (State.withdrawQueued_frame ..) ?_ | refine .after (State.discardInFlight_quiet ..) ?_

theorem State.stopWork_quiet (s : State) (p : Port) : Quiet s (s.stopWork p) := by
  unfold State.stopWork
  exact (((((s.modPort_quiet p _ (Nat.le_refl _)).trans (State.endPushes_frame ..).quiet).trans
    (State.abandonPulls_frame ..).quiet).trans (State.withdrawPads_frame ..).quiet).trans
    (State.withdrawTrims_frame ..).quiet).trans (State.leaveRecovery_frame ..).quiet

theorem State.abandonAll_quiet (s : State) (p : Port) : Quiet s (s.abandonAll p) := by
  unfold State.abandonAll
  exact ((s.withdrawReads_quiet p).trans (State.stopWork_quiet ..)).trans (State.modPort_quiet _ p _ (Nat.zero_le _))

theorem State.tearDown_quiet (s : State) (p : Port) : Quiet s (s.tearDown p) := by
  have h (e : PortEngine) : (stopWhenEmpty e).list.length ≤ e.list.length := by
    unfold stopWhenEmpty
    split <;> exact Nat.le_refl _
  unfold State.tearDown
  exact (((s.modPort_quiet p _ (by simp)).trans (State.withdrawReads_quiet ..)).trans
    (State.stopWork_quiet ..)).trans (State.modPort_quiet _ p _ (h _))

theorem State.faultPort_quiet (s : State) (p : Port) : Quiet s (s.faultPort p) := by
  unfold State.faultPort
  exact (((s.modPort_quiet p _ (by simp [latchPartFault])).trans (State.withdrawForming_frame ..).quiet).trans
    (State.discardInFlight_quiet ..)).trans (State.stopWork_quiet ..)

theorem State.beginConfigWrite_quiet (s : State) (p : Port) (id : Nat) (c : CommandRecord) :
    Quiet s (s.beginConfigWrite p id c) := by
  unfold State.beginConfigWrite
  repeat' split
  all_goals iterate 3 try first | exact .refl _ | refine .afterF (State.finish_frame ..) ?_ | refine .mk' rfl ?_

theorem State.issueCloseWrite_quiet (s : State) : Quiet s (s.issueCloseWrite) := by
  unfold State.issueCloseWrite
  split
  · exact .refl _
  · rename_i w hw
    have hs : s.recovery.close.isSome = true := by rw [hw]; rfl
    have h (op : MediaOp) (c : Option CloseWork) : Quiet s
        { s.submit op with recovery := { (s.submit op).recovery with close := c } } :=
      have k := (s.submit_frame op).quiet
      ⟨k.pending, k.inForce, k.word, k.part, fun _ => hs, k.counted, k.lists, k.cleaner⟩
    dsimp only
    split
    · exact .refl _
    · split
      · exact h ..
      · exact h ..
    · exact (s.submit_frame _).quiet
    · exact (s.submit_frame _).quiet

theorem State.failClose_quiet (s : State) (p : Port) (id : Nat) (d : Completion) : Quiet s (s.failClose p id d) := by
  unfold State.failClose
  exact Quiet.trans (t := { s with geo := { s.geo with status := .editable }, recovery := { s.recovery with close := none } })
    ⟨rfl, rfl, rfl, rfl, (fun h => by cases h), (fun h => h), fun _ => Nat.le_refl _, fun _ => rfl⟩ (State.finish_frame ..).quiet

theorem State.closeRun_quiet (s : State) (p : Port) (id : Nat) : Quiet s (s.closeRun p id) := by
  unfold State.closeRun
  split
  · exact .refl _
  · exact .afterF (State.requestSlots_frame ..) (.mk' rfl (.refl _))

theorem State.openRun_quiet (s : State) (p : Port) (id x i b o : Nat) : Quiet s (s.openRun p id x i b o) :=
  (s.addRef_frame b).quiet.trans (.mk' rfl (.refl _))

theorem State.extendOrOpen_quiet (s : State) (p : Port) (id x i b o : Nat) : Quiet s (s.extendOrOpen p id x i b o) := by
  unfold State.extendOrOpen
  split
  · exact s.openRun_quiet ..
  · split
    · exact .mk' rfl (.refl _)
    · exact (s.closeRun_quiet ..).trans (State.openRun_quiet ..)

theorem countLookup_key (a b : Nat) (c : Command) : (countLookup a b c).key = c.key := by
  unfold countLookup
  split <;> rfl

theorem noteMissed_key (c : Command) : (noteMissed c).key = c.key := by
  unfold noteMissed
  split <;> rfl

theorem State.readStaged_quiet (s : State) (p : Port) (c : Command) (i n : Nat) : Quiet s (s.readStaged p c i n) :=
  ((s.closeRun_quiet p c.id).trans (State.pinSlot_frame ..).quiet).trans
    ((State.modCommand_frame _ _ _ _ (countLookup_key 1 0)).quiet.trans (State.sendPush_frame ..).quiet)

theorem State.readUnmapped_quiet (s : State) (p : Port) (c : Command) (i : Nat) : Quiet s (s.readUnmapped p c i) :=
  (s.closeRun_quiet p c.id).trans
    ((State.modCommand_frame _ _ _ _ (countLookup_key 0 1)).quiet.trans (State.sendPush_frame ..).quiet)

theorem State.readMapped_quiet (s : State) (p : Port) (c : Command) (i b o : Nat) : Quiet s (s.readMapped p c i b o) := by
  have h := (s.extendOrOpen_quiet p c.id (c.record.lbn.toNat + i) i b o).trans
    (State.modCommand_frame _ p c.id _ (countLookup_key 0 0)).quiet
  unfold State.readMapped
  dsimp only
  split
  · exact h
  · exact h.trans (State.closeRun_quiet ..)

theorem State.readLookup_quiet (s : State) (p : Port) (c : Command) : Quiet s (s.readLookup p c) := by
  unfold State.readLookup
  split
  · dsimp only
    split
    · split
      · exact s.readUnmapped_quiet ..
      · exact s.readMapped_quiet ..
    · split
      · exact s.readStaged_quiet ..
      · exact (s.modCommand_frame _ _ _ noteMissed_key).quiet
  · exact .refl _

theorem noteRead_key (read : List (Nat × BandRecord)) (c : Command) : (noteRead read c).key = c.key := by
  unfold noteRead
  split <;> rfl

theorem State.reportRead_quiet (s : State) (p : Port) (c : Command) : Quiet s (s.reportRead p c) := by
  have h (read : List (Nat × BandRecord)) := s.modCommand_frame p c.id _ (noteRead_key read)
  unfold State.reportRead
  split
  · dsimp only
    split
    · exact (h []).quiet.trans (State.sendPush_frame ..).quiet
    · exact (h _).quiet
  · exact .refl _

theorem State.readerStep_quiet (s : State) (p : Port) (c : Command) : Quiet s (s.readerStep p c) := by
  unfold State.readerStep
  split
  · exact s.reportRead_quiet ..
  · exact s.readLookup_quiet ..

theorem State.lookupTick_quiet (s : State) : Quiet s s.lookupTick := by
  unfold State.lookupTick
  split
  · exact .refl _
  · exact s.readerStep_quiet ..
  · exact Quiet.trans (.mk' rfl (.refl _)) (State.readerStep_quiet ..)

theorem State.beginRead_quiet (s : State) (p : Port) (id : Nat) : Quiet s (s.beginRead p id) := (s.setWork_frame ..).quiet

theorem State.beginWrite_quiet (s : State) (p : Port) (id : Nat) : Quiet s (s.beginWrite p id) := by
  unfold State.beginWrite
  iterate 3 try first
    | exact .refl _ | refine .afterF (State.setWork_frame ..) ?_
    | refine .afterF (State.requestNextPull_frame ..) ?_

theorem State.beginTrim_quiet (s : State) (p : Port) (id : Nat) (c : CommandRecord) : Quiet s (s.beginTrim p id c) := by
  unfold State.beginTrim
  iterate 4 try first | exact .refl _ | refine .afterF (State.awaitTrim_frame ..) ?_ | refine .afterF (State.setWork_frame ..) ?_ | refine .mk' rfl ?_

theorem State.requestPads_quiet (s : State) (owner : PadOwner) (x0 : List Stream) :
    Quiet s (s.requestPads owner x0) := by
  induction x0 generalizing s with
  | nil => exact .refl _
  | cons x xs ih =>
    unfold State.requestPads
    iterate 3 try first
      | exact .refl _ | refine .after (ih ..) ?_ | refine .afterF (State.requestPad_frame ..) ?_

theorem State.beginFlush_quiet (s : State) (p : Port) (id : Nat) : Quiet s (s.beginFlush p id) := by
  unfold State.beginFlush
  iterate 4 try first
    | exact .refl _ | refine .afterF (State.setWork_frame ..) ?_
    | refine .afterF (State.requestJournal_frame ..) ?_ | refine .after (State.requestPads_quiet ..) ?_

theorem State.beginLocate_quiet (s : State) (p : Port) (id : Nat) (c : CommandRecord) :
    Quiet s (s.beginLocate p id c) := by
  unfold State.beginLocate
  iterate 2 try first | exact .refl _ | refine .afterF (State.finish_frame ..) ?_

theorem State.beginReport_quiet (s : State) (p : Port) (id : Nat) : Quiet s (s.beginReport p id) := (s.setWork_frame ..).quiet

theorem State.moveGroup_quiet (s : State) (q : Port) (new : Port) : Quiet s (s.moveGroup q new) := by
  unfold State.moveGroup
  iterate 2 try first | exact .refl _ | refine .mk' rfl ?_

theorem State.takeOver_quiet (s : State) (p : Port) (force : Bool) : Quiet s (s.takeOver p force) := by
  unfold State.takeOver
  dsimp only
  have h : Quiet s (if isWalking (s.port (otherPort p)).process = true ∨
      (s.port (otherPort p)).process = Process.halted ∧ (s.port (otherPort p)).list ≠ [] then s.tearDown (otherPort p) else s) := by
    split
    · exact s.tearDown_quiet _
    · exact .refl _
  split
  · exact (h.trans (State.moveGroup_quiet ..)).trans (State.modPort_quiet _ _ _ (Nat.le_refl _))
  · exact h.trans (State.moveGroup_quiet ..)

theorem State.beginTakeover_quiet (s : State) (p : Port) (id : Nat) (c : CommandRecord) :
    Quiet s (s.beginTakeover p id c) := by
  unfold State.beginTakeover
  try dsimp only
  repeat' split
  all_goals iterate 3 try first
      | exact .refl _ | refine .afterF (State.finish_frame ..) ?_ | refine .after (State.takeOver_quiet ..) ?_

theorem State.endReturned_quiet (s : State) (q : Port) (group : Port) (x0 : List Command) :
    Quiet s (s.endReturned q group x0) := by
  induction x0 generalizing s with
  | nil => exact .refl _
  | cons x xs ih =>
    unfold State.endReturned
    repeat' split
    all_goals iterate 4 try first
        | exact .refl _ | refine .after (ih ..) ?_ | refine .afterF (State.finish_frame ..) ?_
        | refine .afterF (State.abandonPulls_frame ..) ?_

theorem State.returnGroup_quiet (s : State) (p : Port) : Quiet s (s.returnGroup p) := by
  unfold State.returnGroup
  try dsimp only
  repeat' split
  all_goals iterate 3 try first
      | exact .refl _ | refine .after (State.endReturned_quiet ..) ?_
      | refine .after (State.moveGroup_quiet ..) ?_

theorem State.reportCheckpoint_quiet (s : State) (ok : Bool) : Quiet s (s.reportCheckpoint ok) := by
  unfold State.reportCheckpoint
  iterate 2 try first | exact .refl _ | refine .afterF (State.finishAll_frame ..) ?_

theorem State.rebuildRead_quiet (s : State) (band : Nat) (first : Nat) (count : Nat) :
    Quiet s (s.rebuildRead band first count) := by
  unfold State.rebuildRead
  iterate 2 try first | exact .refl _ | refine .afterF (State.submit_frame ..) ?_

theorem State.rebuildSystemRead_quiet (s : State) (index : Nat) (count : Nat) :
    Quiet s (s.rebuildSystemRead index count) := by
  unfold State.rebuildSystemRead
  iterate 2 try first | exact .refl _ | refine .afterF (State.submit_frame ..) ?_

theorem State.setStep_quiet (s : State) (x : RebuildStep) : Quiet s (s.setStep x) := by
  unfold State.setStep
  iterate 2 try first | exact .refl _ | refine .mk' rfl ?_

theorem State.setCandidates_quiet (s : State) (x0 : List Candidate) : Quiet s (s.setCandidates x0) := by
  induction x0 generalizing s with
  | nil => exact .refl _
  | cons x xs ih =>
    unfold State.setCandidates
    repeat' split
    all_goals iterate 4 try first
        | exact .refl _ | refine .after (ih ..) ?_ | refine .afterF (State.modBand_frame ..) ?_
        | refine .mk' rfl ?_

theorem State.retireNamed_quiet (s : State) (cs : List Candidate) (x0 : List JournalEntry) :
    Quiet s (s.retireNamed cs x0) := by
  induction x0 generalizing s with
  | nil => exact .refl _
  | cons x xs ih =>
    unfold State.retireNamed
    try dsimp only
    repeat' split
    all_goals iterate 4 try first
        | exact .refl _ | refine .after (ih ..) ?_ | refine .afterF (State.modBand_frame ..) ?_
        | refine .mk' rfl ?_

theorem State.setBands_quiet (s : State) (cs : List Candidate) : Quiet s (s.setBands cs) := by
  have h (u : State) : Quiet u ((u.setCandidates cs).retireNamed cs s.recovery.journal) :=
    (u.setCandidates_quiet cs).trans (State.retireNamed_quiet ..)
  have k := h { s with bands := { s.bands with records := cleaningToFull cs 0 s.bands.records } }
  unfold State.setBands
  exact ⟨k.pending, k.inForce, k.word, k.part, k.close, fun _ => rfl, k.lists, k.cleaner⟩

theorem State.endRebuild_quiet (s : State) (r : Rebuild) : Quiet s (s.endRebuild r) := by
  unfold State.endRebuild
  iterate 6 try first
    | exact .refl _ | refine .afterF (State.requestCheckpoint_frame ..) ?_
    | refine .after (State.setBands_quiet ..) ?_ | refine .mk' rfl ?_

theorem State.continueSweep_quiet (s : State) (r : Rebuild) : Quiet s (s.continueSweep r) := by
  unfold State.continueSweep
  repeat' split
  all_goals iterate 3 try first
      | exact .refl _ | refine .after (State.endRebuild_quiet ..) ?_ | refine .after (State.setStep_quiet ..) ?_
      | refine .after (State.rebuildRead_quiet ..) ?_

theorem State.applyRebuild_quiet (s : State) (r : Rebuild) : Quiet s (s.applyRebuild r) := by
  unfold State.applyRebuild
  iterate 4 try first
    | exact .refl _ | refine .after (State.continueSweep_quiet ..) ?_ | refine .mk' rfl ?_

theorem State.readTags_quiet (s : State) (c : Candidate) (offset : Nat) (hopping : Bool) :
    Quiet s (s.readTags c offset hopping) := by
  unfold State.readTags
  iterate 3 try first
    | exact .refl _ | refine .after (State.setStep_quiet ..) ?_ | refine .after (State.rebuildRead_quiet ..) ?_

theorem State.nextCandidate_quiet (s : State) (r : Rebuild) : Quiet s (s.nextCandidate r) := by
  unfold State.nextCandidate
  repeat' split
  all_goals iterate 3 try first
      | exact .refl _ | refine .after (State.applyRebuild_quiet ..) ?_
      | refine .after (State.rebuildRead_quiet ..) ?_ | refine .mk' rfl ?_

theorem State.candidateDone_quiet (s : State) (r : Rebuild) (c : Candidate) : Quiet s (s.candidateDone r c) := by
  unfold State.candidateDone
  iterate 3 try first
    | exact .refl _ | refine .after (State.nextCandidate_quiet ..) ?_ | refine .mk' rfl ?_

theorem State.tagsEnd_quiet (s : State) (r : Rebuild) (c : Candidate) : Quiet s (s.tagsEnd r c) := by
  unfold State.tagsEnd
  iterate 2 try first | exact .refl _ | refine .after (State.candidateDone_quiet ..) ?_

theorem State.hop_quiet (s : State) (r : Rebuild) (c : Candidate) (offset : Nat) : Quiet s (s.hop r c offset) := by
  unfold State.hop
  try dsimp only
  repeat' split
  all_goals iterate 2 try first
      | exact .refl _ | refine .after (State.readTags_quiet ..) ?_ | refine .after (State.tagsEnd_quiet ..) ?_

theorem State.readStartTag_quiet (s : State) (r : Rebuild) (b : Nat) : Quiet s (s.readStartTag r b) := by
  unfold State.readStartTag
  repeat' split
  all_goals iterate 4 try first
      | exact .refl _ | refine .after (State.nextCandidate_quiet ..) ?_
      | refine .after (State.rebuildRead_quiet ..) ?_ | refine .mk' rfl ?_

theorem State.startTagDone_quiet (s : State) (r : Rebuild) (b : Nat) (track : Nat) (m : Option MediaBlock) :
    Quiet s (s.startTagDone r b track m) := by
  unfold State.startTagDone
  try dsimp only
  repeat' split
  all_goals iterate 4 try first
      | exact .refl _ | refine .after (State.readStartTag_quiet ..) ?_
      | refine .after (State.rebuildRead_quiet ..) ?_ | refine .mk' rfl ?_

theorem State.footerDone_quiet (s : State) (r : Rebuild) (blocks : List (Option MediaBlock)) :
    Quiet s (s.footerDone r blocks) := by
  unfold State.footerDone
  try dsimp only
  repeat' split
  all_goals iterate 3 try first
      | exact .refl _ | refine .after (State.nextCandidate_quiet ..) ?_
      | refine .after (State.readTags_quiet ..) ?_ | refine .mk' rfl ?_

theorem State.tagsDone_quiet (s : State) (r : Rebuild) (offset : Nat) (blocks : List (Option MediaBlock)) :
    Quiet s (s.tagsDone r offset blocks) := by
  unfold State.tagsDone
  try dsimp only
  repeat' split
  all_goals iterate 4 try first
      | exact .refl _ | refine .after (State.nextCandidate_quiet ..) ?_ | refine .after (State.hop_quiet ..) ?_
      | refine .after (State.readTags_quiet ..) ?_ | refine .mk' rfl ?_

theorem State.sweepDone_quiet (s : State) (r : Rebuild) (m : Option MediaBlock) : Quiet s (s.sweepDone r m) := by
  unfold State.sweepDone
  repeat' split
  all_goals iterate 4 try first
      | exact .refl _ | refine .after (State.endRebuild_quiet ..) ?_
      | refine .after (State.continueSweep_quiet ..) ?_ | refine .mk' rfl ?_

theorem State.readJournal_quiet (s : State) : Quiet s (s.readJournal) := by
  unfold State.readJournal
  repeat' split
  all_goals iterate 3 try first
      | exact .refl _ | refine .after (State.setStep_quiet ..) ?_
      | refine .after (State.rebuildSystemRead_quiet ..) ?_

theorem State.journalDone_quiet (s : State) (r : Rebuild) (m : Option MediaBlock) : Quiet s (s.journalDone r m) := by
  unfold State.journalDone
  try dsimp only
  repeat' split
  all_goals iterate 4 try first
      | exact .refl _ | refine .after (State.readJournal_quiet ..) ?_
      | refine .after (State.readStartTag_quiet ..) ?_ | refine .mk' rfl ?_

theorem State.readImage_quiet (s : State) (slot : ImageSlot) (cursor : Nat) : Quiet s (s.readImage slot cursor) := by
  unfold State.readImage
  repeat' split
  all_goals iterate 3 try first
      | exact .refl _ | refine .after (State.setStep_quiet ..) ?_
      | refine .after (State.rebuildSystemRead_quiet ..) ?_

theorem State.issueLoad_quiet (s : State) : Quiet s (s.issueLoad) := by
  unfold State.issueLoad
  iterate 4 try first | exact .refl _ | refine .afterF (State.submit_frame ..) ?_ | refine .mk' rfl ?_

theorem State.sendSeek_quiet (s : State) (f : InFlight) : Quiet s (s.sendSeek f) := by
  unfold State.sendSeek
  iterate 2 try first | exact .refl _ | refine .mk' rfl ?_

theorem State.sendTransfer_quiet (s : State) (f : InFlight) : Quiet s (s.sendTransfer f) := by
  unfold State.sendTransfer
  iterate 2 try first | exact .refl _ | refine .mk' rfl ?_

theorem State.seqIdle_quiet (s : State) : Quiet s (s.seqIdle) := by
  unfold State.seqIdle
  iterate 2 try first | exact .refl _ | refine .mk' rfl ?_

theorem State.submitAll_quiet (s : State) (x0 : List MediaOp) : Quiet s (s.submitAll x0) := by
  induction x0 generalizing s with
  | nil => exact .refl _
  | cons x xs ih =>
    unfold State.submitAll
    iterate 3 try first
      | exact .refl _ | refine .after (ih ..) ?_ | refine .afterF (State.submit_frame ..) ?_

theorem State.startVerify_quiet (s : State) (b : Nat) (counted : Bool) : Quiet s (s.startVerify b counted) := by
  unfold State.startVerify
  repeat' split
  all_goals iterate 3 try first | exact .refl _ | refine .after (State.submitAll_quiet ..) ?_ | refine .mk' rfl ?_

theorem State.startVerifies_quiet (s : State) (x0 : List Nat) : Quiet s (s.startVerifies x0) := by
  induction x0 generalizing s with
  | nil => exact .refl _
  | cons x xs ih =>
    unfold State.startVerifies
    iterate 3 try first
      | exact .refl _ | refine .after (ih ..) ?_ | refine .after (State.startVerify_quiet ..) ?_

theorem State.beginVerifying_quiet (s : State) : Quiet s (s.beginVerifying) := by
  unfold State.beginVerifying
  iterate 4 try first
    | exact .refl _ | refine .after (State.startVerifies_quiet ..) ?_ | refine .mk' rfl ?_

theorem State.retireOpen_quiet (s : State) (st : Stream) (b : Nat) (r : BandRecord) :
    Quiet s (s.retireOpen st b r) := by
  unfold State.retireOpen
  repeat' split
  all_goals iterate 6 try first
      | exact .refl _ | refine .afterF (State.modBand_frame ..) ?_ | refine .afterF (State.loseBand_frame ..) ?_
      | refine .afterF (State.recordRetirement_frame ..) ?_ | refine .afterF (State.awaitRetired_frame ..) ?_

theorem State.verifyOutcome_quiet (s : State) (v : Verify) : Quiet s (s.verifyOutcome v) := by
  unfold State.verifyOutcome
  dsimp only
  have h := (s.modBand_frame v.band fun r => { r with suspect := none }).quiet
  split
  · exact h
  · rename_i st _
    have k := h.trans (State.regatherFailed_frame _ st v.fails).quiet
    generalize State.regatherFailed _ st v.fails = u at k ⊢
    refine k.trans ?_
    repeat' split
    all_goals iterate 3 try first
        | exact .refl _ | refine .afterF (State.releaseRetained_frame ..) ?_
        | refine .afterF (State.restartIdle_frame ..) ?_ | refine .after (State.retireOpen_quiet ..) ?_

theorem State.verifyDone_quiet (s : State) (op : MediaOp) (blocks : List (Option MediaBlock)) :
    Quiet s (s.verifyDone op blocks) := by
  have h (u : State) (f : Sequencer → Sequencer) : Quiet u (u.modSeq f) := .mk' rfl (.refl _)
  unfold State.verifyDone
  dsimp only
  refine .after (h _ _) ?_
  split
  · exact ((h s _).trans (h _ _)).trans (State.verifyOutcome_quiet ..)
  · exact h s _

theorem State.unindexRun_quiet (s : State) (slots : List Nat) : Quiet s (s.unindexRun slots) := by
  unfold State.unindexRun
  iterate 2 try first | exact .refl _ | refine .mk' rfl ?_

theorem State.settleSlot_quiet (s : State) (st : Stream) (x : Slot) (r : BlockOutcome) :
    Quiet s (s.settleSlot st x r) := by
  unfold State.settleSlot
  repeat' split
  all_goals iterate 6 try first
      | exact .refl _ | refine .afterF (State.modSlot_frame ..) ?_ | refine .afterF (State.modPlacer_frame ..) ?_
      | refine .afterF (State.freeSlot_frame ..) ?_ | refine .afterF (State.modCleaner_frame ..) ?_

theorem State.settleSlots_quiet (s : State) (st : Stream) (x0 : List (Slot × Nat × BlockOutcome)) :
    Quiet s (s.settleSlots st x0) := by
  induction x0 generalizing s with
  | nil => exact .refl _
  | cons x xs ih =>
    unfold State.settleSlots
    iterate 3 try first
      | exact .refl _ | refine .after (ih ..) ?_ | refine .after (State.settleSlot_quiet ..) ?_

theorem State.endRun_quiet (s : State) (st : Stream) : Quiet s (s.endRun st) := by
  unfold State.endRun
  iterate 3 try first
    | exact .refl _ | refine .afterF (State.modPlacer_frame ..) ?_
    | refine .afterF (State.restartIdle_frame ..) ?_

theorem State.runWritten_quiet (s : State) (st : Stream) (run : OutstandingRun) : Quiet s (s.runWritten st run) := by
  unfold State.runWritten
  repeat' split
  all_goals iterate 12 try first
      | exact .refl _ | refine .afterF (State.modBand_frame ..) ?_ | refine .afterF (State.unreserve_frame ..) ?_
      | refine .afterF (State.unclaimEntry_frame ..) ?_ | refine .afterF (State.changeMap_frame ..) ?_
      | refine .afterF (State.releaseRetained_frame ..) ?_ | refine .after (State.unindexRun_quiet ..) ?_
      | refine .after (State.settleSlots_quiet ..) ?_ | refine .after (State.endRun_quiet ..) ?_

theorem State.countClose_quiet (s : State) : Quiet s (s.countClose) := by
  unfold State.countClose
  try dsimp only
  repeat' split
  all_goals iterate 3 try first
      | exact .refl _ | refine .afterF (State.requestCheckpoint_frame ..) ?_ | refine .mk' rfl ?_

theorem State.footerWritten_quiet (s : State) (st : Stream) (run : OutstandingRun) :
    Quiet s (s.footerWritten st run) := by
  unfold State.footerWritten
  iterate 9 try first
    | exact .refl _ | refine .afterF (State.modBand_frame ..) ?_ | refine .afterF (State.loseBand_frame ..) ?_
    | refine .afterF (State.testBand_frame ..) ?_ | refine .after (State.countClose_quiet ..) ?_
    | refine .after (State.endRun_quiet ..) ?_ | refine .mk' rfl ?_

theorem State.runUnwritten_quiet (s : State) (st : Stream) (run : OutstandingRun) (why : Unwritten) :
    Quiet s (s.runUnwritten st run why) := by
  unfold State.runUnwritten
  repeat' split
  all_goals iterate 4 try first
      | exact .refl _ | refine .afterF (State.dropFooter_frame ..) ?_ | refine .afterF (State.skipRun_frame ..) ?_
      | refine .afterF (State.modBand_frame ..) ?_ | refine .afterF (State.damageRun_frame ..) ?_
      | refine .after (State.startVerify_quiet ..) ?_ | refine .mk' rfl ?_

theorem State.bandWritten_quiet (s : State) (op : MediaOp) : Quiet s (s.bandWritten op) := by
  unfold State.bandWritten
  split
  · exact .refl _
  · split
    · exact s.footerWritten_quiet ..
    · exact s.runWritten_quiet ..

theorem State.bandUnwritten_quiet (s : State) (op : MediaOp) (why : Unwritten) : Quiet s (s.bandUnwritten op why) := by
  unfold State.bandUnwritten
  repeat' split
  all_goals iterate 2 try first | exact .refl _ | refine .after (State.runUnwritten_quiet ..) ?_

theorem State.takeReadBlock_quiet (s : State) (p : Port) (cmd : Nat) (i : Nat) (n : Nat)
    (x : Option MediaBlock) (why : FailedBlock) : Quiet s (s.takeReadBlock p cmd i n x why) := by
  unfold State.takeReadBlock
  split
  · exact (s.freeSlot_frame n).quiet
  · split
    · exact ((s.modSlot_frame n _).trans (State.sendPush_frame ..)).quiet
    · refine ((s.freeSlot_frame n).trans (State.modCommand_frame _ _ _ _ fun k => ?_)).quiet
      split <;> rfl

theorem State.takeReadBlocks_quiet (s : State) (p : Port) (cmd : Nat) (x0 : List Nat) (x1 : List Nat)
    (x2 : List (Option MediaBlock)) : Quiet s (s.takeReadBlocks p cmd x0 x1 x2) := by
  induction x0 generalizing s x1 x2 with
  | nil => unfold State.takeReadBlocks; exact .refl _
  | cons i is ih =>
    cases x1 with
    | nil => unfold State.takeReadBlocks; exact .refl _
    | cons n ns =>
      cases x2 with
      | nil => exact (ih ..).after (s.takeReadBlock_quiet ..)
      | cons x xs => exact (ih ..).after (s.takeReadBlock_quiet ..)

theorem State.portReadDone_quiet (s : State) (p : Port) (op : MediaOp) (blocks : List (Option MediaBlock))
    (discard : Bool) : Quiet s (s.portReadDone p op blocks discard) := by
  unfold State.portReadDone
  repeat' split
  all_goals iterate 3 try first
      | exact .refl _ | refine .afterF (State.dropRef_frame ..) ?_ | refine .afterF (State.freeSlots_frame ..) ?_
      | refine .after (State.takeReadBlocks_quiet ..) ?_

theorem State.requeue_quiet (s : State) (op : MediaOp) : Quiet s (s.requeue op) := by
  unfold State.requeue
  iterate 2 try first | exact .refl _ | refine .mk' rfl ?_

theorem State.shockAbort_quiet (s : State) (op : MediaOp) : Quiet s (s.shockAbort op) := by
  unfold State.shockAbort
  repeat' split
  all_goals iterate 2 try first
      | exact .refl _ | refine .after (State.requeue_quiet ..) ?_
      | refine .after (State.bandUnwritten_quiet ..) ?_

theorem State.abortInFlight_quiet (s : State) : Quiet s (s.abortInFlight) := by
  unfold State.abortInFlight
  repeat' split
  all_goals iterate 3 try first
      | exact .refl _ | refine .after (State.bandUnwritten_quiet ..) ?_
      | refine .after (State.shockAbort_quiet ..) ?_ | refine .mk' rfl ?_

theorem State.enterOldest_quiet (s : State) (x0 : List Waiter) : Quiet s (s.enterOldest x0) := by
  induction x0 generalizing s with
  | nil => exact .mk' rfl (.refl _)
  | cons x xs ih =>
    have h : Quiet s { s with media := { s.media with entryWait := xs } } := .mk' rfl (.refl _)
    cases x with
    | op m => exact h.trans (State.enterWaiting_frame ..).quiet
    | placer st run =>
      unfold State.enterOldest
      dsimp only
      split
      · rename_i u hu
        exact h.trans (State.buildDue_frame _ _ _ hu).quiet
      · exact (h.trans (State.waitForItems_frame ..).quiet).trans (ih _)

theorem State.endMapWait_quiet (s : State) (st : Stream) : Quiet s (s.endMapWait st) := by
  unfold State.endMapWait
  split
  · exact (s.leaveRecordWait_frame st).quiet
  · exact .refl _

theorem State.scanTick_quiet (s : State) : Quiet s (s.scanTick) := by
  unfold State.scanTick
  repeat' split
  all_goals iterate 2 try first | exact .refl _ | refine .afterF (State.modCleaner_frame ..) ?_

theorem State.idle_quiet (s : State) : Quiet s (s.idle) := by
  unfold State.idle
  repeat' split
  all_goals iterate 3 try first
      | exact .refl _ | refine .after (State.issueLoad_quiet ..) ?_ | refine .after (State.lookupTick_quiet ..) ?_
      | refine .after (State.scanTick_quiet ..) ?_

end Sys2Proof.Machine
end

