-- ==== Sys2Proof/Laws/Keeps.lean ====
section
/-! SUPPORT. The relation `Keeps`, and that the operations which move the part state keep it. -/

namespace Sys2Proof.Machine

/-- What every operation but RESET keeps: the queue of commands, a right EMPTY count, bounded in-flight lists, the record and a
CONFIG CLOSE in their part states, FAULTED with the Cleaner's state in it, and the record in force with its check word. -/
structure Keeps (s t : State) : Prop where
  pending : t.pending = s.pending
  counted : s.EmptyCounted → t.EmptyCounted
  lists : s.ListsBounded → t.ListsBounded
  placed : s.Placed → t.Placed
  faulted : s.Faulted → t.Faulted
  inForce : s.Placed → ∀ g, s.geo.inForce = some g → t.geo.inForce = some g ∧ t.geo.checkWord = s.geo.checkWord
  cleaner : s.Faulted → t.cleaner = s.cleaner

theorem Keeps.refl (s : State) : Keeps s s := ⟨rfl, id, id, id, id, fun _ _ h => ⟨h, rfl⟩, fun _ => rfl⟩

theorem Keeps.trans {s t u : State} (h : Keeps s t) (k : Keeps t u) : Keeps s u :=
  ⟨k.1.trans h.1, fun x => k.2 (h.2 x), fun x => k.3 (h.3 x), fun x => k.4 (h.4 x), fun x => k.5 (h.5 x),
    fun x g e => by
      obtain ⟨a, b⟩ := h.6 x g e
      obtain ⟨c, d⟩ := k.6 (h.4 x) g a
      exact ⟨c, d.trans b⟩,
    fun x => (k.7 (h.5 x)).trans (h.7 x)⟩

theorem Quiet.keeps {s t : State} (h : Quiet s t) : Keeps s t := by
  refine ⟨h.pending, h.counted, fun l p => Nat.le_trans (h.lists p) (l p), fun ⟨r, c⟩ => ⟨?_, ?_⟩, fun f => ?_,
    fun _ g e => ⟨h.inForce.trans e, h.word⟩, h.cleaner⟩
  · unfold State.RecordPlaced at *
    rw [h.part, h.inForce]
    exact r
  · unfold State.ClosePlaced at *
    rw [h.part]
    exact fun x => c (h.close x)
  · unfold State.Faulted at *
    rw [h.part, f]

theorem Frame.keeps {s t : State} (h : Frame s t) : Keeps s t := h.quiet.keeps

/-! ### Operations that move the part state -/

theorem State.enterFaulted_keeps (s : State) : Keeps s s.enterFaulted := by
  have k : Quiet s ((s.faultPort .a).faultPort .b) := (s.faultPort_quiet .a).trans (State.faultPort_quiet ..)
  unfold State.enterFaulted
  dsimp only
  generalize (s.faultPort .a).faultPort .b = u at k ⊢
  exact ⟨k.pending, k.counted, k.keeps.lists, fun _ => ⟨trivial, fun _ => .inr rfl⟩, fun _ => rfl,
    fun _ g e => ⟨k.inForce.trans e, k.word⟩, k.cleaner⟩

theorem State.closeTo_quiet (s : State) (w : CloseWork) (step : CloseStep) (h : s.recovery.close.isSome) :
    Quiet s (s.closeTo w step) := by
  unfold State.closeTo
  exact Quiet.trans (t := { s with recovery := { s.recovery with close := some { w with step := step, reissues := 0 } } })
    ⟨rfl, rfl, rfl, rfl, fun _ => h, id, fun _ => Nat.le_refl _, fun _ => rfl⟩ (State.issueCloseWrite_quiet _)

theorem State.closeCheck21_quiet (s : State) (w : CloseWork) (n : Nat) (h : s.recovery.close.isSome) :
    Quiet s (s.closeCheck21 w n) := by
  unfold State.closeCheck21
  split
  · exact s.closeTo_quiet _ _ h
  · exact s.failClose_quiet ..

theorem State.beginConfigClose_keeps (s : State) (p : Port) (id : Nat) (h : s.recovery.part = .unconfigured) :
    Keeps s (s.beginConfigClose p id) := by
  unfold State.beginConfigClose
  split
  · exact (s.finish_frame ..).keeps
  · split
    · exact (s.finish_frame ..).keeps
    · dsimp only
      have k (c : CloseWork) : Keeps s { s with geo := { s.geo with status := .closing }, recovery := { s.recovery with close := some c } } :=
        ⟨rfl, fun x => x, fun x => x, fun ⟨r, _⟩ => ⟨r, fun _ => .inl h⟩, fun x => x, fun _ g e => ⟨e, rfl⟩, fun _ => rfl⟩
      split
      · exact (k _).trans (State.setWork_frame ..).keeps
      · refine ((k _).trans (State.setWork_frame ..).keeps).trans (State.closeCheck21_quiet _ _ _ ?_).keeps
        rw [(State.setWork_frame ..).close]
        rfl

theorem State.begin_keeps (s : State) (p : Port) (id opcode : Nat) (c : CommandRecord)
    (h : opcode = 10 → s.recovery.part = .unconfigured) : Keeps s (s.begin p id opcode c) := by
  unfold State.begin
  split
  · exact (s.finish_frame ..).keeps
  · exact (s.beginRead_quiet ..).keeps
  · exact (s.beginWrite_quiet ..).keeps
  · exact (s.beginTrim_quiet ..).keeps
  · exact (s.beginFlush_quiet ..).keeps
  · exact (s.beginLocate_quiet ..).keeps
  · exact (s.beginReport_quiet ..).keeps
  · exact ((s.setWork_frame ..).trans (State.requestCheckpoint_frame ..)).keeps
  · exact (s.beginTakeover_quiet ..).keeps
  · exact (s.beginConfigWrite_quiet ..).keeps
  · exact s.beginConfigClose_keeps p id (h rfl)
  · exact .refl _

theorem State.takeTests_close (s : State) (p : Port) (c : CommandRecord) (h : s.takeTests p 10 c = .begins) :
    s.recovery.part = .unconfigured := by
  unfold State.takeTests at h
  cases hp : s.recovery.part <;> simp [hp] at h ⊢

theorem State.decideCommand_keeps (s : State) (p : Port) (id opcode : Nat) (c : CommandRecord) :
    Keeps s (s.decideCommand p id opcode c) := by
  unfold State.decideCommand
  split
  · exact (s.modCommand_frame p id (fun x => { x with held := true }) fun _ => rfl).keeps
  · exact (s.finish_frame ..).keeps
  · rename_i h
    have k := s.modCommand_frame p id (fun x => { x with held := false }) fun _ => rfl
    refine k.keeps.trans (State.begin_keeps _ p id opcode c fun e => ?_)
    rw [k.part]
    exact s.takeTests_close p c (e ▸ h)

theorem takenPort_length (opcode : Nat) (c : CommandRecord) (a : Address) (e : PortEngine) :
    (takenPort opcode c a e).list.length = e.list.length + 1 := by
  unfold takenPort
  split
  · simp [startPollTimer, stopWalk]
  · split <;> simp [chainFormatHalt, haltPort, latchChainFormat, stopWalk]

theorem State.takeCommand_keeps (s : State) (p : Port) (opcode : Nat) (a : Address) (c : CommandRecord) :
    Keeps s (s.takeCommand p opcode a c) := by
  unfold State.takeCommand
  split
  · rename_i h
    refine Keeps.trans (t := s.modPort p (takenPort opcode c a)) ⟨rfl, id, fun l q => ?_, id, id, fun _ g e => ⟨e, rfl⟩, fun _ => rfl⟩
      ((State.decideCommand_keeps ..).trans (State.react_frame _).keeps)
    by_cases hq : q = p
    · subst hq
      have : ((s.modPort q (takenPort opcode c a)).port q) = takenPort opcode c a (s.port q) := by cases q <;> rfl
      rw [this, takenPort_length]
      exact h
    · have : ((s.modPort p (takenPort opcode c a)).port q) = s.port q := by
        cases p <;> cases q <;> first | rfl | exact absurd rfl hq
      rw [this]
      exact l q
  · exact .refl _

theorem State.takeAtPosition_keeps (s : State) (p : Port) (opcode : Nat) (c : CommandRecord) :
    Keeps s (s.takeAtPosition p opcode c) := by
  unfold State.takeAtPosition
  split
  · exact .refl _
  · exact s.takeCommand_keeps ..

theorem State.examineRecord_keeps (s : State) (p : Port) (a : Address) (w : RecordWords) :
    Keeps s (s.examineRecord p a w) := by
  unfold State.examineRecord
  dsimp only
  have h (f : PortEngine → PortEngine) (hf : (f (s.port p)).list = (s.port p).list) : Keeps s (s.modPort p f) :=
    (s.modPort_quiet p f (Nat.le_of_eq (by rw [hf]))).keeps
  split
  · exact h _ (by unfold suspendNotOwned; rfl)
  · split
    · exact h _ rfl
    · split
      · exact s.takeCommand_keeps ..
      · split
        · exact h _ rfl
        · exact h _ rfl

theorem State.examineContinuation_keeps (s : State) (p : Port) (first : Address) (head : RecordWords) (pieces : List Word64)
    (a : Address) (w : RecordWords) : Keeps s (s.examineContinuation p first head pieces a w) := by
  unfold State.examineContinuation
  dsimp only
  have h (f : PortEngine → PortEngine) (hf : (f (s.port p)).list = (s.port p).list) : Keeps s (s.modPort p f) :=
    (s.modPort_quiet p f (Nat.le_of_eq (by rw [hf]))).keeps
  split
  · exact h _ rfl
  · split
    · exact s.takeCommand_keeps ..
    · split
      · exact h _ rfl
      · exact h _ rfl

theorem State.releaseCommands_keeps (s : State) (p : Port) (l : List Command) : Keeps s (s.releaseCommands p l) := by
  induction l generalizing s with
  | nil => exact .refl _
  | cons c rest ih =>
    unfold State.releaseCommands
    split
    · exact (s.decideCommand_keeps ..).trans (ih _)
    · exact ih _

theorem State.releaseHeld_keeps (s : State) : Keeps s s.releaseHeld :=
  (s.releaseCommands_keeps ..).trans (State.releaseCommands_keeps ..)

theorem State.comeIntoForce_counted (s : State) (g : Geometry) : (s.comeIntoForce g).EmptyCounted := by
  unfold State.EmptyCounted State.comeIntoForce State.createSlots State.createBands emptyRecords
  simp [emptyBand]

/-- READY from REBUILDING. -/
theorem State.enterReady_keeps (s : State) (h : s.recovery.part = .rebuilding) : Keeps s s.enterReady := by
  unfold State.enterReady
  dsimp only
  refine Keeps.trans (t := s.modRecovery fun r => { r with part := .ready, rebuild := none }) ?_
    (((State.modCleaner_frame ..).trans (State.modCleaner_frame ..)).keeps.trans (State.releaseHeld_keeps _))
  refine ⟨rfl, id, id, fun ⟨r, c⟩ => ⟨?_, fun x => ?_⟩, fun f => ?_, fun _ g e => ⟨e, rfl⟩, fun _ => rfl⟩
  · unfold State.RecordPlaced at r
    rw [h] at r
    exact r
  · have := c x
    rw [h] at this
    cases this <;> contradiction
  · unfold State.Faulted at f
    rw [h] at f
    contradiction

theorem State.endCheckpoint_keeps (s : State) (ok : Bool) : Keeps s (s.endCheckpoint ok) := by
  unfold State.endCheckpoint
  dsimp only
  generalize hd : (s.recovery.due || !ok && s.recovery.journalFull) = due
  have k : Quiet s ((s.reportCheckpoint ok).modRecovery fun r => { r with checkpoint := { r.checkpoint with state := .idle }, joined := [] }) :=
    (s.reportCheckpoint_quiet ok).trans (.mk' rfl (.refl _))
  generalize (s.reportCheckpoint ok).modRecovery (fun r => { r with checkpoint := { r.checkpoint with state := .idle }, joined := [] }) = u at k ⊢
  have k3 : Quiet s (if due = true then u.startCheckpoint u.recovery.next else u) := by
    split
    · exact k.trans (u.startCheckpoint_frame _).quiet
    · exact k
  generalize (if due = true then u.startCheckpoint u.recovery.next else u) = v at k3 ⊢
  split
  · rename_i h
    exact k3.keeps.trans (v.enterReady_keeps (k3.part.trans h))
  · exact k3.keeps

theorem State.modRebuild_quiet (s : State) (f : Rebuild → Rebuild) : Quiet s (s.modRebuild f) :=
  .mk' rfl (.refl _)

theorem State.modRecovery_quiet (s : State) (f : Recovery → Recovery) (h : (f s.recovery).part = s.recovery.part)
    (hc : (f s.recovery).close = s.recovery.close) : Quiet s (s.modRecovery f) :=
  ⟨rfl, rfl, rfl, h, by show (f s.recovery).close.isSome → _; rw [hc]; exact id, id, fun _ => Nat.le_refl _, fun _ => rfl⟩

theorem State.finishCheckpoint_keeps (s : State) (ok : Bool) : Keeps s (s.finishCheckpoint ok) := by
  unfold State.finishCheckpoint
  dsimp only
  have k : Quiet s (s.finishWritePhase.modRecovery fun r => { r with checkpoint := { s.recovery.checkpoint with state := .finishing } }) :=
    s.finishWritePhase_quiet.trans (State.modRecovery_quiet _ _ rfl rfl)
  generalize State.modRecovery _ _ = u at k ⊢
  split
  · exact k.keeps.trans (u.endCheckpoint_keeps _)
  · have k2 := k.trans (u.modRecovery_quiet (fun r =>
      { r with lastImage := some s.recovery.checkpoint.slot, sequence := r.sequence + 1, firstUnreleased := s.recovery.checkpoint.unreleased
               journal := r.journal.filter fun e => decide (s.recovery.checkpoint.unreleased ≤ e.record.sequence) }) rfl rfl)
    generalize State.modRecovery _ _ = v at k2 ⊢
    have k3 := (k2.trans (v.appendHeld_frame v.recovery.heldRetires).quiet).trans
      (State.modRecovery_quiet _ (fun r => { r with checkpoint := { r.checkpoint with finishUpTo := r.nextSequence } }) rfl rfl)
    split
    · exact k3.keeps.trans (State.endCheckpoint_keeps ..)
    · exact (k3.trans (State.requestJournal_frame ..).quiet).keeps

theorem State.checkpointWriteDone_keeps (s : State) (o : WriteOutcome) : Keeps s (s.checkpointWriteDone o) := by
  unfold State.checkpointWriteDone
  dsimp only
  split
  · exact s.issueCheckpointWrite_frame.keeps
  · split
    · exact ((s.modRecovery_quiet _ rfl rfl).trans (State.issueCheckpointWrite_frame _).quiet).keeps
    · exact s.finishCheckpoint_keeps _
  · split
    · exact ((s.modRecovery_quiet _ rfl rfl).trans (State.issueCheckpointWrite_frame _).quiet).keeps
    · exact s.finishCheckpoint_keeps _
  · exact .refl _

theorem State.closeJournalWrite_quiet (s : State) (ok : Bool) : Quiet s (s.closeJournalWrite ok) :=
  (s.modRecovery_quiet (fun r => r.closeJournalWrite ok) rfl rfl).trans (.mk' rfl (.refl _))

theorem State.endJournalWrite_keeps (s : State) (ok : Bool) : Keeps s (s.endJournalWrite ok) := by
  unfold State.endJournalWrite
  dsimp only
  have k := (s.closeJournalWrite_quiet ok).trans (State.answerJournal_frame _ ok s.recovery.journalWrite.requesters).quiet
  generalize State.answerJournal _ ok _ = u at k ⊢
  have k3 (rs : List JournalRequester) : Quiet s (if s.recovery.journalWrite.further = true then u.requestJournal rs else u) := by
    split
    · exact k.trans (u.requestJournal_frame _).quiet
    · exact k
  split
  · exact (k3 _).keeps.trans (State.endCheckpoint_keeps ..)
  · exact (k3 _).keeps

theorem State.journalWriteDone_keeps (s : State) (o : WriteOutcome) : Keeps s (s.journalWriteDone o) := by
  unfold State.journalWriteDone
  dsimp only
  split
  · exact s.issueJournalWrite_frame.keeps
  · split
    · exact ((s.modRecovery_quiet _ rfl rfl).trans (State.issueJournalWrite_frame _).quiet).keeps
    · exact s.endJournalWrite_keeps _
  · split
    · exact ((s.modRecovery_quiet _ rfl rfl).trans (State.issueJournalWrite_frame _).quiet).keeps
    · exact s.endJournalWrite_keeps _
    · exact s.endJournalWrite_keeps _

theorem State.commitClose_keeps (s : State) (w : CloseWork) (hc : s.recovery.close.isSome) (hf : s.recovery.part ≠ .faulted) :
    Keeps s (s.commitClose w) := by
  unfold State.commitClose
  dsimp only
  let s1 : State := { s with geo := { s.geo with draft := [], status := .editable } }
  let s2 := (s1.comeIntoForce w.record).modRecovery fun r =>
    { r with close := none, lastImage := some .first, sequence := 1, part := .rebuilding }
  have k : Keeps s s2 := by
    refine ⟨rfl, fun _ => State.comeIntoForce_counted s1 w.record, id, fun _ => ⟨?_, fun x => by cases x⟩,
      fun f => absurd f hf, fun ⟨r, c⟩ g e => ?_, fun _ => rfl⟩
    · show s2.geo.inForce ≠ none
      exact Option.some_ne_none _
    · have := c hc
      rcases this with h | h
      · unfold State.RecordPlaced at r
        rw [h] at r
        rw [e] at r
        contradiction
      · exact absurd h hf
  exact k.trans ((State.enterReady_keeps s2 rfl).trans (State.finish_frame ..).keeps)

theorem State.closeWriteDone_keeps (s : State) (o : WriteOutcome) (hf : s.recovery.part ≠ .faulted) :
    Keeps s (s.closeWriteDone o) := by
  unfold State.closeWriteDone
  split
  · exact .refl _
  · rename_i w hw
    have hc : s.recovery.close.isSome := by rw [hw]; rfl
    split
    · exact s.issueCloseWrite_quiet.keeps
    · split
      · refine ((Quiet.trans (s := s) (t := s.modRecovery fun r => { r with close := some { w with reissues := w.reissues + 1 } })
          ⟨rfl, rfl, rfl, rfl, fun _ => hc, id, fun _ => Nat.le_refl _, fun _ => rfl⟩ (State.issueCloseWrite_quiet _))).keeps
      · exact (s.failClose_quiet ..).keeps
    · split
      · exact .refl _
      · split
        · exact (s.closeTo_quiet _ _ hc).keeps
        · exact (s.closeTo_quiet _ _ hc).keeps
      · exact (s.closeTo_quiet _ _ hc).keeps
      · exact s.commitClose_keeps w hc hf

theorem State.systemWriteDone_keeps (s : State) (op : MediaOp) (o : WriteOutcome) :
    Keeps s (s.systemWriteDone op o) := by
  unfold State.systemWriteDone
  split
  · split
    · exact (s.closeJournalWrite_quiet _).keeps
    · exact .refl _
  · rename_i hf
    split
    · exact s.checkpointWriteDone_keeps o
    · exact s.journalWriteDone_keeps o
    · exact s.closeWriteDone_keeps o hf
    all_goals exact .refl _

theorem State.takeImage_quiet (s : State) (slot : ImageSlot) (h : ImageHeader) (r : Rebuild) :
    Quiet s (s.takeImage slot h r) := by
  unfold State.takeImage
  dsimp only
  refine Quiet.trans ?_ (State.readJournal_quiet _)
  exact ⟨rfl, rfl, rfl, rfl, id, fun _ => rfl, fun _ => Nat.le_refl _, fun _ => rfl⟩

theorem State.tryImage_keeps (s : State) (hs : List (ImageSlot × ImageHeader)) : Keeps s (s.tryImage hs) := by
  unfold State.tryImage
  split
  · exact s.enterFaulted_keeps
  · exact ((s.modRebuild_quiet _).trans (State.readImage_quiet ..)).keeps

theorem State.headerDone_keeps (s : State) (r : Rebuild) (slot : ImageSlot) (m : Option MediaBlock) :
    Keeps s (s.headerDone r slot m) := by
  unfold State.headerDone
  dsimp only
  split
  · exact (((s.modRebuild_quiet _).trans (State.setStep_quiet ..)).trans
      (State.rebuildSystemRead_quiet ..)).keeps
  · exact s.tryImage_keeps _
  · exact .refl _

theorem State.imageDone_keeps (s : State) (r : Rebuild) (slot : ImageSlot) (bs : List (Option MediaBlock)) :
    Keeps s (s.imageDone r slot bs) := by
  unfold State.imageDone
  split
  · split
    · exact s.tryImage_keeps _
    · dsimp only
      rename_i r1 _
      have k : Quiet s (s.modRebuild fun _ => r1) := .mk' rfl (.refl s)
      split
      · exact (k.trans (State.readImage_quiet ..)).keeps
      · split
        · exact (k.trans (State.takeImage_quiet ..)).keeps
        · exact k.keeps.trans (State.tryImage_keeps ..)
  · exact .refl _

theorem State.rebuildReadDone_keeps (s : State) (op : MediaOp) (bs : List (Option MediaBlock)) (b : Bool) :
    Keeps s (s.rebuildReadDone op bs b) := by
  unfold State.rebuildReadDone
  split
  · exact .refl _
  · split
    · exact .refl _
    · split
      · exact (s.submit_frame _).keeps
      · split
        · exact s.headerDone_keeps ..
        · exact s.imageDone_keeps ..
        · exact (s.journalDone_quiet ..).keeps
        · exact (s.startTagDone_quiet ..).keeps
        · exact (s.footerDone_quiet ..).keeps
        · exact (s.tagsDone_quiet ..).keeps
        · exact (s.sweepDone_quiet ..).keeps
        · exact .refl _

theorem State.beginRebuild_keeps (s : State) (g : Geometry) (h : s.recovery.part = .loading) :
    Keeps s (s.beginRebuild g) := by
  unfold State.beginRebuild
  dsimp only
  refine Keeps.trans (t := (s.comeIntoForce g).modRecovery fun r => { r with part := .rebuilding, rebuild := some Rebuild.start }) ?_
    (State.rebuildSystemRead_quiet ..).keeps
  refine ⟨rfl, fun _ => s.comeIntoForce_counted g, id, fun ⟨_, c⟩ => ⟨Option.some_ne_none _, fun x => ?_⟩, fun f => ?_,
    fun ⟨r, _⟩ g e => ?_, fun _ => rfl⟩
  · have := c x
    rw [h] at this
    cases this <;> contradiction
  · unfold State.Faulted at f
    rw [h] at f
    contradiction
  · unfold State.RecordPlaced at r
    rw [h] at r
    rw [e] at r
    contradiction

theorem State.endLoad_keeps (s : State) (h : s.recovery.part = .loading) : Keeps s s.endLoad := by
  have k : Keeps s ((s.modRecovery fun r => { r with part := .unconfigured }).releaseHeld) := by
    refine Keeps.trans ?_ (State.releaseHeld_keeps _)
    refine ⟨rfl, id, id, fun ⟨r, c⟩ => ⟨?_, fun _ => .inl rfl⟩, fun f => ?_, fun _ g e => ⟨e, rfl⟩, fun _ => rfl⟩
    · unfold State.RecordPlaced at r
      rw [h] at r
      exact r
    · unfold State.Faulted at f
      rw [h] at f
      contradiction
  unfold State.endLoad
  split
  · exact s.beginRebuild_keeps _ h
  · exact (s.beginRebuild_keeps _ h).trans (State.submit_frame ..).keeps
  · exact k
  · exact k
  · exact s.enterFaulted_keeps
  · exact s.enterFaulted_keeps
  · exact .refl _
  · exact .refl _

theorem State.systemReadDone_keeps (s : State) (op : MediaOp) (bs : List (Option MediaBlock)) (b : Bool) :
    Keeps s (s.systemReadDone op bs b) := by
  unfold State.systemReadDone
  split
  · rename_i second _
    split
    · exact .refl _
    · split
      · exact (s.submit_frame _).keeps
      · rename_i h _
        have h : s.recovery.part = .loading := Decidable.of_not_not h
        dsimp only
        refine Keeps.trans (t := s.modRecovery fun r => if second = true then { r with copy1 := some (copyResult (firstBlock bs)) }
          else { r with copy0 := some (copyResult (firstBlock bs)) }) (State.modRecovery_quiet _ _ ?_ ?_).keeps (State.endLoad_keeps _ ?_)
        · cases second <;> rfl
        · cases second <;> rfl
        · cases second <;> exact h
  · exact s.rebuildReadDone_keeps ..
  all_goals exact .refl _

theorem State.readDone_keeps (s : State) (op : MediaOp) (bs : List (Option MediaBlock)) (b c : Bool) :
    Keeps s (s.readDone op bs b c) := by
  unfold State.readDone
  split
  · exact (s.verifyDone_quiet ..).keeps
  · exact s.systemReadDone_keeps ..
  · split
    · exact (s.portReadDone_quiet ..).keeps
    · split
      · exact (s.scanReadDone_frame ..).keeps
      · exact (s.cleanerReadDone_frame ..).keeps
    · exact s.rebuildReadDone_keeps ..
    · exact .refl _
  all_goals exact .refl _

theorem State.completeNotReady_keeps (s : State) (op : MediaOp) (bs : List (Option MediaBlock)) (b : Bool) :
    Keeps s (s.completeNotReady op bs b) := by
  unfold State.completeNotReady
  split
  · exact (s.bandUnwritten_quiet ..).keeps
  · exact (s.bandUnwritten_quiet ..).keeps
  · exact s.systemWriteDone_keeps ..
  all_goals exact s.readDone_keeps ..

theorem State.completeAllFailed_keeps (s : State) (f : InFlight) : Keeps s (s.completeAllFailed f) := by
  unfold State.completeAllFailed
  split
  · exact (s.bandUnwritten_quiet ..).keeps
  · exact (s.bandUnwritten_quiet ..).keeps
  · exact s.systemWriteDone_keeps ..
  all_goals exact s.readDone_keeps ..

theorem State.writeGood_keeps (s : State) (op : MediaOp) : Keeps s (s.writeGood op) := by
  unfold State.writeGood
  split
  · exact s.systemWriteDone_keeps ..
  · exact (s.bandWritten_quiet ..).keeps

theorem State.writeFaulted_keeps (s : State) (op : MediaOp) : Keeps s (s.writeFaulted op) := by
  unfold State.writeFaulted
  split
  · exact s.systemWriteDone_keeps ..
  · exact (s.bandUnwritten_quiet ..).keeps

theorem State.continueRead_keeps (s : State) (f : InFlight) : Keeps s (s.continueRead f) := by
  unfold State.continueRead
  split
  · exact (s.sendTransfer_quiet f).keeps
  · exact ((s.seqIdle_quiet).keeps.trans (State.readDone_keeps ..)).trans (State.react_frame _).keeps

end Sys2Proof.Machine
end

