-- ==== Sys2Proof/Laws/State.lean ====
section
/-! SUPPORT. One lemma per field of `State` per update, true by `rfl`; what reading one port, stream, account or notice unit gives
after another has been written. -/

namespace Sys2Proof.Machine

variable {α : Type}

@[simp] theorem PerPort.get_set_same (v : PerPort α) (i : Port) (x : α) : (v.set i x).get i = x := by cases i <;> rfl

theorem PerPort.get_set_other (v : PerPort α) {i j : Port} (h : j ≠ i) (x : α) : (v.set i x).get j = v.get j := by
  cases i <;> cases j <;> first | rfl | exact absurd rfl h

@[simp] theorem PerStream.get_set_same (v : PerStream α) (i : Stream) (x : α) : (v.set i x).get i = x := by cases i <;> rfl

theorem PerStream.get_set_other (v : PerStream α) {i j : Stream} (h : j ≠ i) (x : α) : (v.set i x).get j = v.get j := by
  cases i <;> cases j <;> first | rfl | exact absurd rfl h

@[simp] theorem PerAccount.get_set_same (v : PerAccount α) (i : Account) (x : α) : (v.set i x).get i = x := by cases i <;> rfl

theorem PerAccount.get_set_other (v : PerAccount α) {i j : Account} (h : j ≠ i) (x : α) : (v.set i x).get j = v.get j := by
  cases i <;> cases j <;> first | rfl | exact absurd rfl h

@[simp] theorem State.setPort_port (s : State) (p : Port) (e : PortEngine) : (s.setPort p e).port p = e := by cases p <;> rfl

theorem State.setPort_port_other (s : State) {p q : Port} (h : q ≠ p) (e : PortEngine) : (s.setPort p e).port q = s.port q :=
  PerPort.get_set_other _ h _

@[simp] theorem State.modPort_port (s : State) (p : Port) (f : PortEngine → PortEngine) :
    (s.modPort p f).port p = f (s.port p) := by cases p <;> rfl

theorem State.modPort_port_other (s : State) {p q : Port} (h : q ≠ p) (f : PortEngine → PortEngine) :
    (s.modPort p f).port q = s.port q :=
  PerPort.get_set_other _ h _

@[simp] theorem State.setNotice_notice (s : State) (p : Port) (n : NoticeUnit) : (s.setNotice p n).notice p = n := by
  cases p <;> rfl

theorem State.setNotice_notice_other (s : State) {p q : Port} (h : q ≠ p) (n : NoticeUnit) :
    (s.setNotice p n).notice q = s.notice q :=
  PerPort.get_set_other _ h _

@[simp] theorem State.modPlacer_placer (s : State) (st : Stream) (f : Placer → Placer) :
    (s.modPlacer st f).placer st = f (s.placer st) := by cases st <;> rfl

theorem State.modPlacer_placer_other (s : State) {st su : Stream} (h : su ≠ st) (f : Placer → Placer) :
    (s.modPlacer st f).placer su = s.placer su :=
  PerStream.get_set_other _ h _

@[simp] theorem State.modSeq_seq (s : State) (f : Sequencer → Sequencer) : (s.modSeq f).seq = f s.seq := rfl

theorem State.modCleaner_cleaner (s : State) (f : Cleaner → Cleaner) :
    (s.modCleaner f).cleaner = if s.recovery.part = .faulted then s.cleaner else f s.cleaner := rfl

@[simp] theorem State.modCleaner_faulted (s : State) (f : Cleaner → Cleaner) (h : s.recovery.part = .faulted) :
    s.modCleaner f = s := by
  unfold State.modCleaner
  rw [if_pos h]

@[simp] theorem State.modCleaner_running (s : State) (f : Cleaner → Cleaner) (h : s.recovery.part ≠ .faulted) :
    (s.modCleaner f).cleaner = f s.cleaner := if_neg h

@[simp] theorem State.modRecovery_recovery (s : State) (f : Recovery → Recovery) : (s.modRecovery f).recovery = f s.recovery := rfl

@[simp] theorem State.setPort_geo (s : State) (p : Port) (e : PortEngine) : (s.setPort p e).geo = s.geo := rfl
@[simp] theorem State.setPort_bands (s : State) (p : Port) (e : PortEngine) : (s.setPort p e).bands = s.bands := rfl
@[simp] theorem State.setPort_map (s : State) (p : Port) (e : PortEngine) : (s.setPort p e).map = s.map := rfl
@[simp] theorem State.setPort_staging (s : State) (p : Port) (e : PortEngine) : (s.setPort p e).staging = s.staging := rfl
@[simp] theorem State.setPort_placers (s : State) (p : Port) (e : PortEngine) : (s.setPort p e).placers = s.placers := rfl
@[simp] theorem State.setPort_media (s : State) (p : Port) (e : PortEngine) : (s.setPort p e).media = s.media := rfl
@[simp] theorem State.setPort_seq (s : State) (p : Port) (e : PortEngine) : (s.setPort p e).seq = s.seq := rfl
@[simp] theorem State.setPort_cleaner (s : State) (p : Port) (e : PortEngine) : (s.setPort p e).cleaner = s.cleaner := rfl
@[simp] theorem State.setPort_recovery (s : State) (p : Port) (e : PortEngine) : (s.setPort p e).recovery = s.recovery := rfl
@[simp] theorem State.setPort_notices (s : State) (p : Port) (e : PortEngine) : (s.setPort p e).notices = s.notices := rfl
@[simp] theorem State.setPort_pending (s : State) (p : Port) (e : PortEngine) : (s.setPort p e).pending = s.pending := rfl

@[simp] theorem State.modPort_geo (s : State) (p : Port) (f : PortEngine → PortEngine) : (s.modPort p f).geo = s.geo := rfl
@[simp] theorem State.modPort_bands (s : State) (p : Port) (f : PortEngine → PortEngine) : (s.modPort p f).bands = s.bands := rfl
@[simp] theorem State.modPort_map (s : State) (p : Port) (f : PortEngine → PortEngine) : (s.modPort p f).map = s.map := rfl
@[simp] theorem State.modPort_staging (s : State) (p : Port) (f : PortEngine → PortEngine) : (s.modPort p f).staging = s.staging := rfl
@[simp] theorem State.modPort_placers (s : State) (p : Port) (f : PortEngine → PortEngine) : (s.modPort p f).placers = s.placers := rfl
@[simp] theorem State.modPort_media (s : State) (p : Port) (f : PortEngine → PortEngine) : (s.modPort p f).media = s.media := rfl
@[simp] theorem State.modPort_seq (s : State) (p : Port) (f : PortEngine → PortEngine) : (s.modPort p f).seq = s.seq := rfl
@[simp] theorem State.modPort_cleaner (s : State) (p : Port) (f : PortEngine → PortEngine) : (s.modPort p f).cleaner = s.cleaner := rfl
@[simp] theorem State.modPort_recovery (s : State) (p : Port) (f : PortEngine → PortEngine) : (s.modPort p f).recovery = s.recovery := rfl
@[simp] theorem State.modPort_notices (s : State) (p : Port) (f : PortEngine → PortEngine) : (s.modPort p f).notices = s.notices := rfl
@[simp] theorem State.modPort_pending (s : State) (p : Port) (f : PortEngine → PortEngine) : (s.modPort p f).pending = s.pending := rfl

@[simp] theorem State.setNotice_geo (s : State) (p : Port) (n : NoticeUnit) : (s.setNotice p n).geo = s.geo := rfl
@[simp] theorem State.setNotice_bands (s : State) (p : Port) (n : NoticeUnit) : (s.setNotice p n).bands = s.bands := rfl
@[simp] theorem State.setNotice_map (s : State) (p : Port) (n : NoticeUnit) : (s.setNotice p n).map = s.map := rfl
@[simp] theorem State.setNotice_staging (s : State) (p : Port) (n : NoticeUnit) : (s.setNotice p n).staging = s.staging := rfl
@[simp] theorem State.setNotice_placers (s : State) (p : Port) (n : NoticeUnit) : (s.setNotice p n).placers = s.placers := rfl
@[simp] theorem State.setNotice_media (s : State) (p : Port) (n : NoticeUnit) : (s.setNotice p n).media = s.media := rfl
@[simp] theorem State.setNotice_seq (s : State) (p : Port) (n : NoticeUnit) : (s.setNotice p n).seq = s.seq := rfl
@[simp] theorem State.setNotice_cleaner (s : State) (p : Port) (n : NoticeUnit) : (s.setNotice p n).cleaner = s.cleaner := rfl
@[simp] theorem State.setNotice_recovery (s : State) (p : Port) (n : NoticeUnit) : (s.setNotice p n).recovery = s.recovery := rfl
@[simp] theorem State.setNotice_ports (s : State) (p : Port) (n : NoticeUnit) : (s.setNotice p n).ports = s.ports := rfl
@[simp] theorem State.setNotice_pending (s : State) (p : Port) (n : NoticeUnit) : (s.setNotice p n).pending = s.pending := rfl

@[simp] theorem State.setPlacer_geo (s : State) (st : Stream) (x : Placer) : (s.setPlacer st x).geo = s.geo := rfl
@[simp] theorem State.setPlacer_bands (s : State) (st : Stream) (x : Placer) : (s.setPlacer st x).bands = s.bands := rfl
@[simp] theorem State.setPlacer_map (s : State) (st : Stream) (x : Placer) : (s.setPlacer st x).map = s.map := rfl
@[simp] theorem State.setPlacer_staging (s : State) (st : Stream) (x : Placer) : (s.setPlacer st x).staging = s.staging := rfl
@[simp] theorem State.setPlacer_media (s : State) (st : Stream) (x : Placer) : (s.setPlacer st x).media = s.media := rfl
@[simp] theorem State.setPlacer_seq (s : State) (st : Stream) (x : Placer) : (s.setPlacer st x).seq = s.seq := rfl
@[simp] theorem State.setPlacer_cleaner (s : State) (st : Stream) (x : Placer) : (s.setPlacer st x).cleaner = s.cleaner := rfl
@[simp] theorem State.setPlacer_recovery (s : State) (st : Stream) (x : Placer) : (s.setPlacer st x).recovery = s.recovery := rfl
@[simp] theorem State.setPlacer_ports (s : State) (st : Stream) (x : Placer) : (s.setPlacer st x).ports = s.ports := rfl
@[simp] theorem State.setPlacer_notices (s : State) (st : Stream) (x : Placer) : (s.setPlacer st x).notices = s.notices := rfl
@[simp] theorem State.setPlacer_pending (s : State) (st : Stream) (x : Placer) : (s.setPlacer st x).pending = s.pending := rfl

@[simp] theorem State.modPlacer_geo (s : State) (st : Stream) (f : Placer → Placer) : (s.modPlacer st f).geo = s.geo := rfl
@[simp] theorem State.modPlacer_bands (s : State) (st : Stream) (f : Placer → Placer) : (s.modPlacer st f).bands = s.bands := rfl
@[simp] theorem State.modPlacer_map (s : State) (st : Stream) (f : Placer → Placer) : (s.modPlacer st f).map = s.map := rfl
@[simp] theorem State.modPlacer_staging (s : State) (st : Stream) (f : Placer → Placer) : (s.modPlacer st f).staging = s.staging := rfl
@[simp] theorem State.modPlacer_media (s : State) (st : Stream) (f : Placer → Placer) : (s.modPlacer st f).media = s.media := rfl
@[simp] theorem State.modPlacer_seq (s : State) (st : Stream) (f : Placer → Placer) : (s.modPlacer st f).seq = s.seq := rfl
@[simp] theorem State.modPlacer_cleaner (s : State) (st : Stream) (f : Placer → Placer) : (s.modPlacer st f).cleaner = s.cleaner := rfl
@[simp] theorem State.modPlacer_recovery (s : State) (st : Stream) (f : Placer → Placer) : (s.modPlacer st f).recovery = s.recovery := rfl
@[simp] theorem State.modPlacer_ports (s : State) (st : Stream) (f : Placer → Placer) : (s.modPlacer st f).ports = s.ports := rfl
@[simp] theorem State.modPlacer_notices (s : State) (st : Stream) (f : Placer → Placer) : (s.modPlacer st f).notices = s.notices := rfl
@[simp] theorem State.modPlacer_pending (s : State) (st : Stream) (f : Placer → Placer) : (s.modPlacer st f).pending = s.pending := rfl

@[simp] theorem State.modSeq_geo (s : State) (f : Sequencer → Sequencer) : (s.modSeq f).geo = s.geo := rfl
@[simp] theorem State.modSeq_bands (s : State) (f : Sequencer → Sequencer) : (s.modSeq f).bands = s.bands := rfl
@[simp] theorem State.modSeq_map (s : State) (f : Sequencer → Sequencer) : (s.modSeq f).map = s.map := rfl
@[simp] theorem State.modSeq_staging (s : State) (f : Sequencer → Sequencer) : (s.modSeq f).staging = s.staging := rfl
@[simp] theorem State.modSeq_placers (s : State) (f : Sequencer → Sequencer) : (s.modSeq f).placers = s.placers := rfl
@[simp] theorem State.modSeq_media (s : State) (f : Sequencer → Sequencer) : (s.modSeq f).media = s.media := rfl
@[simp] theorem State.modSeq_cleaner (s : State) (f : Sequencer → Sequencer) : (s.modSeq f).cleaner = s.cleaner := rfl
@[simp] theorem State.modSeq_recovery (s : State) (f : Sequencer → Sequencer) : (s.modSeq f).recovery = s.recovery := rfl
@[simp] theorem State.modSeq_ports (s : State) (f : Sequencer → Sequencer) : (s.modSeq f).ports = s.ports := rfl
@[simp] theorem State.modSeq_notices (s : State) (f : Sequencer → Sequencer) : (s.modSeq f).notices = s.notices := rfl
@[simp] theorem State.modSeq_pending (s : State) (f : Sequencer → Sequencer) : (s.modSeq f).pending = s.pending := rfl

@[simp] theorem State.modCleaner_geo (s : State) (f : Cleaner → Cleaner) : (s.modCleaner f).geo = s.geo := rfl
@[simp] theorem State.modCleaner_bands (s : State) (f : Cleaner → Cleaner) : (s.modCleaner f).bands = s.bands := rfl
@[simp] theorem State.modCleaner_map (s : State) (f : Cleaner → Cleaner) : (s.modCleaner f).map = s.map := rfl
@[simp] theorem State.modCleaner_staging (s : State) (f : Cleaner → Cleaner) : (s.modCleaner f).staging = s.staging := rfl
@[simp] theorem State.modCleaner_placers (s : State) (f : Cleaner → Cleaner) : (s.modCleaner f).placers = s.placers := rfl
@[simp] theorem State.modCleaner_media (s : State) (f : Cleaner → Cleaner) : (s.modCleaner f).media = s.media := rfl
@[simp] theorem State.modCleaner_seq (s : State) (f : Cleaner → Cleaner) : (s.modCleaner f).seq = s.seq := rfl
@[simp] theorem State.modCleaner_recovery (s : State) (f : Cleaner → Cleaner) : (s.modCleaner f).recovery = s.recovery := rfl
@[simp] theorem State.modCleaner_ports (s : State) (f : Cleaner → Cleaner) : (s.modCleaner f).ports = s.ports := rfl
@[simp] theorem State.modCleaner_notices (s : State) (f : Cleaner → Cleaner) : (s.modCleaner f).notices = s.notices := rfl
@[simp] theorem State.modCleaner_pending (s : State) (f : Cleaner → Cleaner) : (s.modCleaner f).pending = s.pending := rfl

@[simp] theorem State.modRecovery_geo (s : State) (f : Recovery → Recovery) : (s.modRecovery f).geo = s.geo := rfl
@[simp] theorem State.modRecovery_bands (s : State) (f : Recovery → Recovery) : (s.modRecovery f).bands = s.bands := rfl
@[simp] theorem State.modRecovery_map (s : State) (f : Recovery → Recovery) : (s.modRecovery f).map = s.map := rfl
@[simp] theorem State.modRecovery_staging (s : State) (f : Recovery → Recovery) : (s.modRecovery f).staging = s.staging := rfl
@[simp] theorem State.modRecovery_placers (s : State) (f : Recovery → Recovery) : (s.modRecovery f).placers = s.placers := rfl
@[simp] theorem State.modRecovery_media (s : State) (f : Recovery → Recovery) : (s.modRecovery f).media = s.media := rfl
@[simp] theorem State.modRecovery_seq (s : State) (f : Recovery → Recovery) : (s.modRecovery f).seq = s.seq := rfl
@[simp] theorem State.modRecovery_cleaner (s : State) (f : Recovery → Recovery) : (s.modRecovery f).cleaner = s.cleaner := rfl
@[simp] theorem State.modRecovery_ports (s : State) (f : Recovery → Recovery) : (s.modRecovery f).ports = s.ports := rfl
@[simp] theorem State.modRecovery_notices (s : State) (f : Recovery → Recovery) : (s.modRecovery f).notices = s.notices := rfl
@[simp] theorem State.modRecovery_pending (s : State) (f : Recovery → Recovery) : (s.modRecovery f).pending = s.pending := rfl

@[simp] theorem State.modSlot_geo (s : State) (n : Nat) (f : Slot → Slot) : (s.modSlot n f).geo = s.geo := rfl
@[simp] theorem State.modSlot_bands (s : State) (n : Nat) (f : Slot → Slot) : (s.modSlot n f).bands = s.bands := rfl
@[simp] theorem State.modSlot_map (s : State) (n : Nat) (f : Slot → Slot) : (s.modSlot n f).map = s.map := rfl
@[simp] theorem State.modSlot_placers (s : State) (n : Nat) (f : Slot → Slot) : (s.modSlot n f).placers = s.placers := rfl
@[simp] theorem State.modSlot_media (s : State) (n : Nat) (f : Slot → Slot) : (s.modSlot n f).media = s.media := rfl
@[simp] theorem State.modSlot_seq (s : State) (n : Nat) (f : Slot → Slot) : (s.modSlot n f).seq = s.seq := rfl
@[simp] theorem State.modSlot_cleaner (s : State) (n : Nat) (f : Slot → Slot) : (s.modSlot n f).cleaner = s.cleaner := rfl
@[simp] theorem State.modSlot_recovery (s : State) (n : Nat) (f : Slot → Slot) : (s.modSlot n f).recovery = s.recovery := rfl
@[simp] theorem State.modSlot_ports (s : State) (n : Nat) (f : Slot → Slot) : (s.modSlot n f).ports = s.ports := rfl
@[simp] theorem State.modSlot_notices (s : State) (n : Nat) (f : Slot → Slot) : (s.modSlot n f).notices = s.notices := rfl
@[simp] theorem State.modSlot_pending (s : State) (n : Nat) (f : Slot → Slot) : (s.modSlot n f).pending = s.pending := rfl

/-! ### The test of a held release (R35) -/

@[simp] theorem State.retestRelease_retest (s : State) (b : Nat) :
    (s.retestRelease b).bands.retest = (s.bands.retest || decide (s.bands.release = some b)) := rfl
@[simp] theorem State.retestRelease_release (s : State) (b : Nat) : (s.retestRelease b).bands.release = s.bands.release := rfl
@[simp] theorem State.retestRelease_records (s : State) (b : Nat) : (s.retestRelease b).bands.records = s.bands.records := rfl
@[simp] theorem State.retestRelease_band (s : State) (b c : Nat) : (s.retestRelease b).band c = s.band c := rfl
@[simp] theorem State.retestRelease_emptyCount (s : State) (b : Nat) :
    (s.retestRelease b).bands.emptyCount = s.bands.emptyCount := rfl
@[simp] theorem State.retestRelease_closeCounter (s : State) (b : Nat) :
    (s.retestRelease b).bands.closeCounter = s.bands.closeCounter := rfl
@[simp] theorem State.retestRelease_openWait (s : State) (b : Nat) : (s.retestRelease b).bands.openWait = s.bands.openWait := rfl
@[simp] theorem State.retestRelease_geo (s : State) (b : Nat) : (s.retestRelease b).geo = s.geo := rfl
@[simp] theorem State.retestRelease_map (s : State) (b : Nat) : (s.retestRelease b).map = s.map := rfl
@[simp] theorem State.retestRelease_staging (s : State) (b : Nat) : (s.retestRelease b).staging = s.staging := rfl
@[simp] theorem State.retestRelease_placers (s : State) (b : Nat) : (s.retestRelease b).placers = s.placers := rfl
@[simp] theorem State.retestRelease_media (s : State) (b : Nat) : (s.retestRelease b).media = s.media := rfl
@[simp] theorem State.retestRelease_seq (s : State) (b : Nat) : (s.retestRelease b).seq = s.seq := rfl
@[simp] theorem State.retestRelease_cleaner (s : State) (b : Nat) : (s.retestRelease b).cleaner = s.cleaner := rfl
@[simp] theorem State.retestRelease_recovery (s : State) (b : Nat) : (s.retestRelease b).recovery = s.recovery := rfl
@[simp] theorem State.retestRelease_ports (s : State) (b : Nat) : (s.retestRelease b).ports = s.ports := rfl
@[simp] theorem State.retestRelease_notices (s : State) (b : Nat) : (s.retestRelease b).notices = s.notices := rfl
@[simp] theorem State.retestRelease_pending (s : State) (b : Nat) : (s.retestRelease b).pending = s.pending := rfl

/-- All that the release test can do: nothing without a held release that is due for it; a test passed or failed with one. -/
theorem State.releaseTest_cases (s : State) :
    (s.releaseTest = s ∧ (s.bands.release = none ∨ s.bands.retest = false)) ∨
    ∃ b, s.bands.release = some b ∧ s.bands.retest = true ∧
      ((s.releaseClear b = true ∧ s.recovery.unwritten = [] ∧
          s.releaseTest = { s.emptyTheBand b with
            bands := { (s.emptyTheBand b).bands with release := none, retest := false } }) ∨
        ((s.releaseClear b = false ∨ s.recovery.unwritten ≠ []) ∧
          s.releaseTest = { s with bands := { s.bands with retest := false } })) := by
  unfold State.releaseTest
  split
  · exact .inl ⟨rfl, .inl ‹_›⟩
  · rename_i b h
    split
    · rename_i e
      refine .inr ⟨b, h, e, ?_⟩
      split
      · rename_i c
        simp only [Bool.and_eq_true, decide_eq_true_eq] at c
        exact .inl ⟨c.1, c.2, rfl⟩
      · rename_i c
        simp only [Bool.and_eq_true, decide_eq_true_eq] at c
        refine .inr ⟨?_, rfl⟩
        by_cases e : s.releaseClear b = true
        · exact .inr fun u => c ⟨e, u⟩
        · exact .inl (by simpa using e)
    · rename_i e
      exact .inl ⟨rfl, .inr (by simpa using e)⟩

/-! ### Word writes and the link (R142) -/

@[simp] theorem State.throughLink_up {s : State} {p : Port} (h : (s.port p).linkUp = true) (t : State) :
    s.throughLink p t = .next t := by simp [State.throughLink, h]

@[simp] theorem State.throughLink_down {s : State} {p : Port} (h : (s.port p).linkUp = false) (t : State) :
    s.throughLink p t = .next s := by simp [State.throughLink, h]

/-- All that a word write can do: what it brings about with the link UP, and nothing with the link DOWN. -/
theorem State.throughLink_cases {s t u : State} {p : Port} (h : s.throughLink p t = .next u) :
    ((s.port p).linkUp = true ∧ u = t) ∨ ((s.port p).linkUp = false ∧ u = s) := by
  cases e : (s.port p).linkUp
  · rw [State.throughLink_down e] at h
    cases h
    exact .inr ⟨rfl, rfl⟩
  · rw [State.throughLink_up e] at h
    cases h
    exact .inl ⟨rfl, rfl⟩

end Sys2Proof.Machine
end

