-- ==== Sys2Proof/Laws/Placer.lean ====
section
/-! SUPPORT. What freeing slots does (R64), what a placer passes over when it takes slots for a run (R68, R72), and all that a try
to build a data run can do. -/

namespace Sys2Proof.Machine

/-! ### What a freed slot reaches (R64) -/

/-- Freeing a slot reaches the Staging Manager and the placers alone. -/
theorem State.freeSlot_reaches (s : State) (n : Nat) :
    s.freeSlot n = { s with staging := (s.freeSlot n).staging, placers := (s.freeSlot n).placers } := by
  have detach : ∀ x : Slot, s.detachSlot x =
      { s with staging := (s.detachSlot x).staging, placers := (s.detachSlot x).placers } := fun x => by
    unfold State.detachSlot
    split <;> rfl
  have leave : ∀ (t : State) (x : Slot), t.leavePads x = { t with placers := (t.leavePads x).placers } := fun t x => by
    unfold State.leavePads
    split <;> rfl
  unfold State.freeSlot
  split
  · rfl
  · rename_i x _
    split
    · rw [leave, detach x]
      rfl
    · rw [detach x]
      rfl

theorem State.freeSlots_reaches (s : State) (ns : List Nat) :
    s.freeSlots ns = { s with staging := (s.freeSlots ns).staging, placers := (s.freeSlots ns).placers } := by
  induction ns generalizing s with
  | nil => rfl
  | cons n rest ih =>
    change (s.freeSlot n).freeSlots rest = { s with
      staging := ((s.freeSlot n).freeSlots rest).staging, placers := ((s.freeSlot n).freeSlots rest).placers }
    rw [ih, s.freeSlot_reaches n]

/-! ### One slot that is freed (R64) -/

theorem State.slot_number {s : State} {n : Nat} {x : Slot} (h : s.slot n = some x) : x.number = n := by
  simpa using List.find?_some h

/-- The slots and the queues after one slot has been freed: it is FREE where nothing pins it and release due otherwise, and it is off
its stream's queue. -/
theorem State.freeSlot_cases {s : State} {n : Nat} {x : Slot} (h : s.slot n = some x) :
    (∀ st, ((s.freeSlot n).placer st).queue
      = if x.origin = .stream st then (s.placer st).queue.filter (fun m => decide (m ≠ n)) else (s.placer st).queue)
    ∧ (s.freeSlot n).staging.slots
      = if x.pins = 0 then s.staging.slots.filter (fun y => decide (y.number ≠ n))
        else s.staging.slots.map fun y => if y.number = n then { y with releaseDue := true } else y := by
  obtain rfl := State.slot_number h
  have mod (t : State) (o st : Stream) (f : Placer → Placer) :
      ((t.modPlacer o f).placer st).queue = if o = st then (f (t.placer o)).queue else (t.placer st).queue := by
    by_cases c : o = st
    · subst c
      simp
    · rw [if_neg c, State.modPlacer_placer_other _ (fun e => c e.symm)]
  have detachSlots : (s.detachSlot x).staging.slots = s.staging.slots := by
    unfold State.detachSlot
    split <;> rfl
  have detachQueue (st : Stream) : ((s.detachSlot x).placer st).queue
      = if x.origin = .stream st then (s.placer st).queue.filter (fun m => decide (m ≠ x.number)) else (s.placer st).queue := by
    unfold State.detachSlot
    cases e : x.origin with
    | port p => rfl
    | stream o =>
      simp only [mod, SlotOrigin.stream.injEq]
      split
      · rename_i c
        subst c
        rfl
      · rfl
  have leaveSlots (t : State) : (t.leavePads x).staging.slots = t.staging.slots := by
    unfold State.leavePads
    split <;> rfl
  have leaveQueue (t : State) (st : Stream) : ((t.leavePads x).placer st).queue = (t.placer st).queue := by
    unfold State.leavePads
    split
    · rfl
    · rw [mod]
      split
      · rename_i c
        subst c
        rfl
      · rfl
  unfold State.freeSlot
  simp only [h]
  by_cases c : x.pins = 0
  · simp only [c, if_true]
    refine ⟨fun st => (leaveQueue _ st).trans (detachQueue st), (leaveSlots _).trans ?_⟩
    change (s.detachSlot x).staging.slots.filter _ = _
    rw [detachSlots]
  · simp only [c, if_false]
    refine ⟨detachQueue, ?_⟩
    change (s.detachSlot x).staging.slots.map _ = _
    rw [detachSlots]

/-- Freeing a slot that is not listed changes nothing. -/
theorem State.freeSlot_none {s : State} {n : Nat} (h : s.slot n = none) : s.freeSlot n = s := by simp [State.freeSlot, h]

/-- Freeing a slot leaves every other slot as it is. -/
theorem State.freeSlot_slot_other (s : State) {n k : Nat} (h : k ≠ n) : (s.freeSlot n).slot k = s.slot k := by
  cases e : s.slot n with
  | none => rw [State.freeSlot_none e]
  | some x =>
    have slots := (State.freeSlot_cases e).2
    unfold State.slot
    rw [slots]
    split
    · rw [List.find?_filter]
      congr 1
      funext y
      by_cases c : y.number = k
      · simp [c, h]
      · simp [c]
    · rw [List.find?_map]
      have same : ((fun y : Slot => decide (y.number = k)) ∘ fun y => if y.number = n then { y with releaseDue := true } else y)
          = fun y : Slot => decide (y.number = k) := by
        funext y
        by_cases c : y.number = n <;> simp [c]
      rw [same]
      cases f : s.staging.slots.find? fun y => decide (y.number = k) with
      | none => rfl
      | some y =>
        have c : y.number = k := by simpa using List.find?_some f
        simp [c, h]

/-- A slot that no READ has pinned is FREE once it is freed. -/
theorem State.freeSlot_gone {s : State} {n : Nat} {x : Slot} (h : s.slot n = some x) (hp : x.pins = 0) :
    ∀ z ∈ (s.freeSlot n).staging.slots, z.number ≠ n := by
  rw [(State.freeSlot_cases h).2, if_pos hp]
  intro z hz
  simpa using (List.mem_filter.mp hz).2

/-- A slot that a READ has pinned is release due once it is freed. -/
theorem State.freeSlot_pinned {s : State} {n : Nat} {x : Slot} (h : s.slot n = some x) (hp : 0 < x.pins) :
    (s.freeSlot n).slot n = some { x with releaseDue := true } := by
  have hx := State.slot_number h
  have hp' : x.pins ≠ 0 := Nat.pos_iff_ne_zero.mp hp
  unfold State.slot at h ⊢
  rw [(State.freeSlot_cases h).2, if_neg hp', List.find?_map]
  have same : ((fun y : Slot => decide (y.number = n)) ∘ fun y => if y.number = n then { y with releaseDue := true } else y)
      = fun y : Slot => decide (y.number = n) := by
    funext y
    by_cases c : y.number = n <;> simp [c]
  rw [same, h]
  simp [hx]

/-- A slot that is FREE stays so while others are freed. -/
theorem State.freeSlot_keeps_gone {s : State} {k : Nat} (n : Nat) (h : ∀ z ∈ s.staging.slots, z.number ≠ k) :
    ∀ z ∈ (s.freeSlot n).staging.slots, z.number ≠ k := by
  cases e : s.slot n with
  | none => rwa [State.freeSlot_none e]
  | some x =>
    rw [(State.freeSlot_cases e).2]
    intro z hz
    split at hz
    · exact h z (List.mem_filter.mp hz).1
    · obtain ⟨y, hy, rfl⟩ := List.mem_map.mp hz
      split <;> exact h y hy

/-- A queue loses the slot that is freed, and no other. -/
theorem State.freeSlot_queue (s : State) (n k : Nat) (st : Stream) :
    (k ∈ ((s.freeSlot n).placer st).queue → k ∈ (s.placer st).queue)
    ∧ (k ≠ n → k ∈ (s.placer st).queue → k ∈ ((s.freeSlot n).placer st).queue) := by
  cases e : s.slot n with
  | none => simp [State.freeSlot_none e]
  | some x =>
    rw [(State.freeSlot_cases e).1]
    split
    · simp only [List.mem_filter, decide_eq_true_eq]
      exact ⟨fun h => h.1, fun h m => ⟨m, h⟩⟩
    · exact ⟨id, fun _ m => m⟩

/-! ### Several slots that are freed -/

theorem State.freeSlots_slot_other (s : State) {k : Nat} {ns : List Nat} (h : k ∉ ns) : (s.freeSlots ns).slot k = s.slot k := by
  induction ns generalizing s with
  | nil => rfl
  | cons n rest ih =>
    rw [List.mem_cons, not_or] at h
    exact (ih (s.freeSlot n) h.2).trans (s.freeSlot_slot_other h.1)

theorem State.freeSlots_keeps_gone {s : State} {k : Nat} (ns : List Nat) (h : ∀ z ∈ s.staging.slots, z.number ≠ k) :
    ∀ z ∈ (s.freeSlots ns).staging.slots, z.number ≠ k := by
  induction ns generalizing s with
  | nil => exact h
  | cons n rest ih => exact ih (State.freeSlot_keeps_gone n h)

theorem State.freeSlots_gone {s : State} {k : Nat} {x : Slot} {ns : List Nat} (hk : k ∈ ns) (h : s.slot k = some x)
    (hp : x.pins = 0) : ∀ z ∈ (s.freeSlots ns).staging.slots, z.number ≠ k := by
  induction ns generalizing s with
  | nil => cases hk
  | cons n rest ih =>
    by_cases c : k = n
    · subst c
      exact State.freeSlots_keeps_gone rest (State.freeSlot_gone h hp)
    · exact ih ((List.mem_cons.mp hk).resolve_left c) ((s.freeSlot_slot_other c).trans h)

theorem State.freeSlots_pinned {s : State} {k : Nat} {x : Slot} {ns : List Nat} (hk : k ∈ ns) (h : s.slot k = some x)
    (hp : 0 < x.pins) : (s.freeSlots ns).slot k = some { x with releaseDue := true } := by
  induction ns generalizing s x with
  | nil => cases hk
  | cons n rest ih =>
    by_cases c : k = n
    · subst c
      have h1 := State.freeSlot_pinned h hp
      by_cases m : k ∈ rest
      · exact (ih m h1 hp :)
      · exact (State.freeSlots_slot_other _ m).trans h1
    · exact ih ((List.mem_cons.mp hk).resolve_left c) ((s.freeSlot_slot_other c).trans h) hp

theorem State.freeSlots_queue (s : State) (k : Nat) (st : Stream) (ns : List Nat) :
    (k ∈ ((s.freeSlots ns).placer st).queue → k ∈ (s.placer st).queue)
    ∧ (k ∉ ns → k ∈ (s.placer st).queue → k ∈ ((s.freeSlots ns).placer st).queue) := by
  induction ns generalizing s with
  | nil => exact ⟨id, fun _ m => m⟩
  | cons n rest ih =>
    refine ⟨fun m => (s.freeSlot_queue n k st).1 ((ih _).1 m), fun h m => ?_⟩
    rw [List.mem_cons, not_or] at h
    exact (ih _).2 h.2 ((s.freeSlot_queue n k st).2 h.1 m)

theorem State.freeSlots_leaves_queue {s : State} {k : Nat} {x : Slot} {st : Stream} {ns : List Nat} (hk : k ∈ ns)
    (h : s.slot k = some x) (ho : x.origin = .stream st) : k ∉ ((s.freeSlots ns).placer st).queue := by
  induction ns generalizing s with
  | nil => cases hk
  | cons n rest ih =>
    by_cases c : k = n
    · subst c
      intro m
      have m1 := (State.freeSlots_queue _ k st rest).1 m
      rw [(State.freeSlot_cases h).1, if_pos ho] at m1
      simp at m1
    · exact ih ((List.mem_cons.mp hk).resolve_left c) ((s.freeSlot_slot_other c).trans h)

/-! ### What a placer passes over (R68, R72) -/

/-- A slot of the plan is the slot of its number. -/
theorem State.plannedRun_slot {s : State} {st : Stream} {x : Slot} (h : x ∈ s.plannedRun st) : s.slot x.number = some x := by
  unfold State.plannedRun at h
  split at h
  · cases h
  · obtain ⟨n, -, hn⟩ := List.mem_filterMap.mp (List.mem_filter.mp (List.mem_of_mem_take h)).1
    rwa [State.slot_number hn]

/-- Only superseded slots of the queue are passed over. -/
theorem State.passedOver_mem {s : State} {st : Stream} {plan : List Slot} {k : Nat} (h : k ∈ s.passedOver st plan) :
    k ∈ (s.placer st).queue ∧ ∃ x, s.slot k = some x ∧ x.superseded = true := by
  unfold State.passedOver at h
  split at h
  · cases h
  · obtain ⟨x, hx, rfl⟩ := List.mem_map.mp h
    obtain ⟨hm, hs⟩ := List.mem_filter.mp hx
    obtain ⟨n, hq, hn⟩ := List.mem_filterMap.mp (List.takeWhile_subset _ hm)
    obtain rfl := State.slot_number hn
    exact ⟨hq, x, hn, hs⟩

/-- The slots passed over are the superseded ones before the last slot taken. -/
theorem State.mem_passedOver {s : State} {st : Stream} {before after : List Nat} {last k : Nat}
    (hq : (s.placer st).queue = before ++ last :: after) (hb : last ∉ before)
    (hl : ((s.plannedRun st).getLast?.map fun x => x.number) = some last) :
    k ∈ s.passedOver st (s.plannedRun st) ↔ k ∈ before ∧ ∃ x, s.slot k = some x ∧ x.superseded = true := by
  obtain ⟨l, hl', rfl⟩ := Option.map_eq_some_iff.mp hl
  have hslot : s.slot l.number = some l := State.plannedRun_slot (List.mem_of_getLast? hl')
  have hhead : s.slotsOf (s.placer st).queue = before.filterMap s.slot ++ l :: after.filterMap s.slot := by
    simp [State.slotsOf, hq, hslot]
  have hall : ∀ x ∈ before.filterMap s.slot, decide (x.number ≠ l.number) = true := by
    intro x hx
    obtain ⟨n, hn, hs⟩ := List.mem_filterMap.mp hx
    obtain rfl := State.slot_number hs
    exact decide_eq_true fun e => hb (e ▸ hn)
  have htake : ((s.slotsOf (s.placer st).queue).takeWhile fun x => decide (x.number ≠ l.number)) = before.filterMap s.slot := by
    rw [hhead, List.takeWhile_append_of_pos hall]
    simp
  unfold State.passedOver
  simp only [hl', htake, List.mem_map, List.mem_filter, List.mem_filterMap]
  constructor
  · rintro ⟨x, ⟨⟨n, hn, hs⟩, hx⟩, rfl⟩
    obtain rfl := State.slot_number hs
    exact ⟨hn, x, hs, hx⟩
  · rintro ⟨hk, x, hs, hx⟩
    exact ⟨x, ⟨⟨k, hk, hs⟩, hx⟩, State.slot_number hs⟩

/-- What has been passed over stands in the slots and in the placer's queue. -/
theorem State.PassesOver.congr {s u v : State} {st : Stream} (h : s.PassesOver st u) (hs : v.staging = u.staging)
    (hq : (v.placer st).queue = (u.placer st).queue) : s.PassesOver st v := by
  have hslot (k : Nat) : v.slot k = u.slot k := by
    unfold State.slot
    rw [hs]
  exact ⟨by simpa only [hs, hq, hslot] using h.freed, by simpa only [hq, hslot] using h.behind,
    by simpa only [hslot] using h.others⟩

/-- All that passing over superseded slots does to the slots and to the placer's queue. -/
theorem State.passSuperseded_passes (s : State) (st : Stream) : s.PassesOver st (s.passSuperseded st) where
  freed := fun _ _ _ hq hb hl k hk x hx hs ho =>
    have hm := (State.mem_passedOver hq hb hl).mpr ⟨hk, x, hx, hs⟩
    ⟨State.freeSlots_leaves_queue hm hx ho, State.freeSlots_gone hm hx, State.freeSlots_pinned hm hx⟩
  behind := fun _ _ _ hq hb hl k hk hn =>
    have hm : k ∉ s.passedOver st (s.plannedRun st) := fun m => hn ((State.mem_passedOver hq hb hl).mp m).1
    ⟨(State.freeSlots_queue s k st _).2 hm (by simp [hq, hk]), State.freeSlots_slot_other s hm⟩
  others := fun k h => by
    refine State.freeSlots_slot_other s fun m => ?_
    obtain ⟨hq, x, hx, hs⟩ := State.passedOver_mem m
    rcases h with h | h
    · exact absurd (h x hx) (by simp [hs])
    · exact h hq

/-- Passing over superseded slots reaches the Staging Manager and the placers alone. -/
theorem State.passSuperseded_reaches (s : State) (st : Stream) :
    s.passSuperseded st = { s with staging := (s.passSuperseded st).staging, placers := (s.passSuperseded st).placers } :=
  s.freeSlots_reaches _

@[simp] theorem State.passSuperseded_map (s : State) (st : Stream) : (s.passSuperseded st).map = s.map := by rw [s.passSuperseded_reaches]
@[simp] theorem State.passSuperseded_media (s : State) (st : Stream) : (s.passSuperseded st).media = s.media := by rw [s.passSuperseded_reaches]
@[simp] theorem State.passSuperseded_bands (s : State) (st : Stream) : (s.passSuperseded st).bands = s.bands := by rw [s.passSuperseded_reaches]
@[simp] theorem State.passSuperseded_geo (s : State) (st : Stream) : (s.passSuperseded st).geo = s.geo := by rw [s.passSuperseded_reaches]
@[simp] theorem State.passSuperseded_seq (s : State) (st : Stream) : (s.passSuperseded st).seq = s.seq := by rw [s.passSuperseded_reaches]
@[simp] theorem State.passSuperseded_cleaner (s : State) (st : Stream) : (s.passSuperseded st).cleaner = s.cleaner := by
  rw [s.passSuperseded_reaches]
@[simp] theorem State.passSuperseded_recovery (s : State) (st : Stream) : (s.passSuperseded st).recovery = s.recovery := by
  rw [s.passSuperseded_reaches]
@[simp] theorem State.passSuperseded_ports (s : State) (st : Stream) : (s.passSuperseded st).ports = s.ports := by rw [s.passSuperseded_reaches]
@[simp] theorem State.passSuperseded_notices (s : State) (st : Stream) : (s.passSuperseded st).notices = s.notices := by
  rw [s.passSuperseded_reaches]
@[simp] theorem State.passSuperseded_pending (s : State) (st : Stream) : (s.passSuperseded st).pending = s.pending := by
  rw [s.passSuperseded_reaches]

/-- All that a try to build a data run can do: the build, the wait for room, and the waits for records, for an entry place, and for
what stands in no list, each after the superseded slots have been passed over. -/
theorem State.tryRun_cases (s : State) (st : Stream) (h : s.wantsRun st = true) :
    (s.recordsCover st = true ∧ s.mayBuild = true ∧ s.map.entryFree (.placer st) = true
      ∧ ((s.queueRoom = true ∧ s.tryRun st = s.buildRun st) ∨ (s.queueRoom = false ∧ s.tryRun st = s.waitForRoom st)))
    ∨ (s.recordsCover st = false ∧ s.tryRun st = (s.passSuperseded st).joinRecordWait st)
    ∨ (s.recordsCover st = true ∧ s.mayBuild = true ∧ s.map.entryFree (.placer st) = false
      ∧ s.tryRun st = (s.passSuperseded st).joinPhaseWait (.placer st))
    ∨ (s.recordsCover st = true ∧ s.mayBuild = false ∧ s.tryRun st = s.passSuperseded st) := by
  cases hc : s.recordsCover st <;> cases hm : s.mayBuild <;> cases he : s.map.entryFree (.placer st) <;>
    cases hq : s.queueRoom <;> simp [State.tryRun, State.waitForItems, State.buildOrWait, h, hc, hm, he, hq]

end Sys2Proof.Machine
end

