-- ==== Sys2Proof/Tests/Slice0.lean ====
section
/-! SUPPORT. Tests: what the checks of WellFormed refuse, the port words of R143, the manual's worked examples one step at a
time, and for each statement a concrete state that meets its hypotheses. -/

namespace Sys2Proof.Tests
open Sys2Proof.Machine
set_option Elab.async false

/-! ### Small states -/

/-- A record of one zone: 6 bands of 2 tracks with 4 blocks each, the last block of each band its footer. -/
def tiny : Geometry :=
  { heads := 1, zones := [⟨4, 1, 8, 6⟩], tracks := 2, guards := 1, sysCyl := 8, userBlocks := 20, mapCap := 10, slots := 16
    low := 3, crit := 1, minRun := 2, gatherIdle := 20, prefs := List.replicate 8 .outer }

/-- The part READY with that record. -/
def ready0 : State := (State.reset.comeIntoForce tiny).modRecovery fun r => { r with part := .ready }

/-- The same with the channel READY and the shock mask over. -/
def live0 : State := ready0.modSeq fun q => { q with ready := true, shockMask := false }

/-- The state after a row, or the same state where the row stops. -/
def after (i : Instr) (s : State) : State :=
  match exec i s with
  | .next t => t
  | .fault _ => s
  | .refused _ => s

/-- A command record with no pieces. -/
def rec0 : CommandRecord := { flags := 1, stream := 0, count := 0, lbn := 0, pieces := [], last := 0x1000, next := 0 }

/-- A command record of `n` blocks from an LBN, with one piece for them. -/
def recN (n lbn : Nat) : CommandRecord :=
  { rec0 with count := BitVec.ofNat 32 n, lbn := BitVec.ofNat 64 lbn, pieces := [BitVec.ofNat 64 (0x2000 + (n - 1))] }

/-- A RUNNING command. -/
def cmd (id : Nat) (k : Nat) (c : CommandRecord) (w : Work) : Command :=
  { id := id, opcode := k, record := c, first := 0x1000, endsChain := true, held := false, status := none, work := w }

/-- The same command FINISHED DONE. -/
def doneCmd (id : Nat) : Command :=
  { cmd id 0 rec0 .none with status := some { status := .done, blocks := 0, result0 := 0, result1 := 0 } }

/-- A RUNNING port at the record 0x1000. -/
def walking : PortEngine := { PortEngine.reset with process := .running, position := .atRecord 0x1000 }

/-- The part READY with Port A as given. -/
def portA (e : PortEngine) : State := ready0.setPort .a e

/-- Port A with one RUNNING command. -/
def oneCmd (c : Command) : State := portA { walking with list := [c], nextId := c.id + 1 }

/-- A record with its record set. -/
def withMap (f : MapUnit → MapUnit) (s : State) : State := { s with map := f s.map }

/-- Staging changed. -/
def withStaging (f : Staging → Staging) (s : State) : State := { s with staging := f s.staging }

/-- The media arbiter changed. -/
def withMedia (f : MediaArbiter → MediaArbiter) (s : State) : State := { s with media := f s.media }

/-- A HOST slot of stream A0. -/
def hostSlot (n lbn : Nat) (st : SlotState) : Slot := { newSlot n st lbn (.stream .a0) with kind := some .host }

/-- Two WRITING slots, 1 and 2, of LBNs 5 and 6. -/
def twoSlots (st : SlotState) : List Slot := [hostSlot 1 5 st, hostSlot 2 6 st]

/-- Band 0 open to stream A0 with a run of two blocks from offset 0 built and numbered operation 5. -/
def built (k : RunKind) (s : State) : State :=
  let run : OutstandingRun :=
    { op := 5, kind := k, band := 0, first := 0, count := 2, slots := if k = .data then [1, 2] else [], number := 0
      reserved := if k = .data then 2 else 0, claimed := false }
  let r : BandRecord := { emptyBand with state := .opened, owner := some .a0, wp := 2 }
  ((withStaging (fun g => { g with slots := if k = .data then twoSlots .writing else [] }) s).putBand 0 r).modPlacer .a0
    fun x => { x with band := some 0, run := some run }

/-- The operation of that run. -/
def runOp (k : OpKind) : MediaOp := { plainOp k (.band 0 0) 2 (.stream .a0) with id := 5 }

/-- An operation in flight at cylinder 8, head 0, sector 0 of a track of 4 blocks. -/
def flying (op : MediaOp) (q : SeqState) (s : State) : State :=
  s.modSeq fun x => { x with state := q, current := some (inFlightOf op (8, 0, 0, 4)) }

/-- A SYSTEM WRITE of one block. -/
def sysOp : MediaOp := systemWriteOp .journalWrite 3 [.journal []]

/-- A READ RUN of Port A of two blocks of band 0 for its command 0. -/
def readOp : MediaOp :=
  { plainOp .readRun (.band 0 0) 2 (.port .a) with id := 5, slots := [some 1, some 2], blocks := [0, 1] }

/-- The shock filter runs. -/
def shaken (s : State) : State := s.modSeq fun q => { q with shockFilter := true }

/-- Stream A0 with band 0 open from offset `wp`, and GATHERED slots 1 and 2 in its queue. -/
def gathered (wp : Nat) : State :=
  let r : BandRecord := { emptyBand with state := .opened, owner := some .a0, wp := wp, done := wp }
  ((withStaging (fun g => { g with slots := twoSlots .gathered, index := [⟨5, 1⟩, ⟨6, 2⟩] }) live0).putBand 0 r).modPlacer .a0
    fun x => { x with band := some 0, queue := [1, 2] }

/-- Stream A0 waits for a band. -/
def askA0 (s : State) : State := s.askBand .a0

/-- A block as the channel delivers it. -/
def media0 : MediaBlock := { content := .user [], tag := none }

/-! ### What WellFormed refuses -/

theorem test_wf_rising : WellFormed.rising [(3, 1), (3, 2)] = false := by decide
theorem test_wf_block_zero_byte : WellFormed.block [(3, 0)] = false := by decide
theorem test_wf_block_too_far : WellFormed.block [(4096, 1)] = false := by decide
theorem test_wf_content_footer :
    WellFormed.content (.footer (List.replicate 257 { kind := .none, lbn := 0, run := 0, source := none })) = false := by
  decide +kernel
theorem test_wf_media_block : WellFormed.mediaBlock { content := .user [(0, 0)], tag := none } = false := by decide
theorem test_wf_transfer : WellFormed.transfer (List.replicate 1024 media0) = false := by decide +kernel
theorem test_wf_record_address : WellFormed.recordAddress 0x1001 = false := by decide
theorem test_wf_command_record : WellFormed.commandRecord { rec0 with pieces := List.replicate 256 0 } = false := by
  decide +kernel
theorem test_wf_ignored_start : WellFormed.ignored (.controlNone 1) = false := by decide
theorem test_wf_ignored_chain_head : WellFormed.ignored (.invalid 0 8) = false := by decide
theorem test_wf_instr : WellFormed.instr (.writeFault 1024) = false := by decide

/-! ### The port words (R143) -/

theorem test_word_control_teardown : portWrite .b 32 8 3 = .teardown .b := by decide
theorem test_word_control_clear_flags : portWrite .a 32 8 0x110006 = .clearFlags .a 0x11 := by decide
theorem test_word_control_seven : portWrite .a 32 8 7 = .portWordWriteIgnored .a (.controlNone 7) := by decide
theorem test_word_settings : portWrite .a 40 8 5 = .settings .a 5 := by decide
theorem test_word_narrow : portWrite .a 40 4 5 = .portWordWriteIgnored .a (.invalid 40 4) := by decide

/-! ### The manual's worked examples -/

/-- Section 1.4, "the zone of the design case", behind a zone that gives it the band base 1200. -/
def designCase : Geometry :=
  { tiny with heads := 4, tracks := 64, zones := [⟨600, 37, 16, 300⟩, ⟨600, 37, 48000, 300⟩] }

theorem test_address_design_case : bandAddress designCase 1213 1500
    = some { zone := 2, head := 1, cylinder := 48197, track := 2, sector := 374 } := by decide +kernel
theorem test_address_skew_wraps : bandAddress designCase 1213 38000
    = some { zone := 2, head := 1, cylinder := 48258, track := 63, sector := 131 } := by decide +kernel

/-- Section 1.7, "a three-zone drive at its limits". -/
def threeZones : Geometry :=
  { tiny with
    heads := 2, tracks := 16, sysCyl := 16, zones := [⟨900, 40, 16, 1000⟩, ⟨700, 31, 17016, 1000⟩, ⟨500, 22, 34016, 800⟩]
    userBlocks := 60000000, mapCap := 1048576, slots := 65536, low := 64, crit := 16, minRun := 32 }

theorem test_three_zones_bands : totalBands threeZones = 5600 := by decide +kernel
theorem test_three_zones_last_band : bandAddress threeZones 5599 7967
    = some { zone := 3, head := 1, cylinder := 47614, track := 15, sector := 297 } := by decide +kernel
theorem test_three_zones_last_of_zone_1 : bandAddress threeZones 1999 0
    = some { zone := 1, head := 1, cylinder := 16999, track := 0, sector := 0 } := by decide +kernel
theorem test_three_zones_sysreq : systemRequired threeZones = 8796 := by decide +kernel
theorem test_three_zones_last_cylinder : lastCylinder threeZones = 47615 := by decide +kernel

/-- Section 3.4, "applying one run": the map before. -/
def mapBefore : List Extent := [⟨1026, 4, 2950, 8996⟩, ⟨1030, 34, 1213, 30⟩, ⟨1064, 20, 4100, 500⟩]

theorem test_run_apply : applyChanges mapBefore
      [.remove 1030 1033, .insert ⟨1030, 4, 2950, 9000⟩, .remove 1072 1074, .insert ⟨1072, 3, 2950, 9004⟩]
    = [⟨1026, 8, 2950, 8996⟩, ⟨1034, 30, 1213, 34⟩, ⟨1064, 8, 4100, 500⟩, ⟨1072, 3, 2950, 9004⟩, ⟨1075, 9, 4100, 511⟩] := by
  decide +kernel

/-- Section 3.9, "a checkpoint's write phase", after the second event. -/
def phaseMap : MapUnit :=
  { MapUnit.reset with
    table := [⟨500, 3, 612, 40⟩], writePhase := true
    pendingApply := [[.remove 501 501, .insert ⟨501, 1, 1213, 2400⟩], [.remove 502 502]] }

theorem test_phase_lookup_501 : mapsTo phaseMap.current 501 1213 2400 = true := by decide +kernel
theorem test_phase_lookup_502 : mapsTo phaseMap.current 502 612 42 = false := by decide +kernel

/-- Section 6.3, "scoring three bands". -/
def fullBand (live : Nat) (n : Word32) : BandRecord :=
  { emptyBand with state := .full, live := live, closeNumber := some n, footer := true }

theorem test_score_x : scoreOf .background 38250 10000 (fullBand 9563 8200) = 1080 := by decide +kernel
theorem test_score_y : scoreOf .background 38250 10000 (fullBand 19125 4000) = 2000 := by decide +kernel
theorem test_score_z_urgent : scoreOf .urgent 7968 10000 (fullBand 4000 9000) = 498 := by decide +kernel
theorem test_score_capped_age : scoreOf .background 38250 100000 (fullBand 9563 0) = 39321 := by decide +kernel

/-- Section 5.2, "a run of grants". -/
def grants : State :=
  let put (k : OpKind) (o : OpOrigin) (n : Nat) : MediaOp := { plainOp k (.band 0 0) 1 o with id := n, arrival := n }
  { withMedia (fun m => { m with
      queue := [put .writeRun (.stream .a0) 1, put .writeRun (.stream .b2) 2, put .readRun .cleaner 3, put .readRun .cleaner 4,
        put .readRun (.port .a) 5, put .readRun (.port .b) 6, put .readRun (.port .a) 7]
      turn4 := .a1, share := 5 }) live0 with cleaner := { live0.cleaner with mode := .background } }

theorem test_grant_1 : (after .arbiterGrant grants).seq.current.map (fun f => f.op.id) = some 5 := by decide +kernel
theorem test_grant_1_share : ((after .arbiterGrant grants).media.turn3, (after .arbiterGrant grants).media.share)
    = (.portB, 6) := by decide +kernel
theorem test_grant_5_turn4 :
    (grants.arbiterChoice.map fun g => g.op.id) = some 5
      ∧ ((withMedia (fun m => { m with queue := m.queue.take 2 }) grants).arbiterChoice.map fun g => (g.op.id, g.turn4))
        = some (2, .b3) := by decide +kernel

/-- Section 8.6, "the end of the chain". -/
def chainEnd : PortEngine :=
  { PortEngine.reset with process := .suspendedEnd, position := .afterRecord 0x1040, list := [doneCmd 0], nextId := 1 }

theorem test_chain_done_mark_c1 :
    ((after (.writeBackEvent .a) (portA { chainEnd with writeBack := some (.flagsWrite false 0) })).port .a).doneMark
      = 0x1001 := by decide +kernel
theorem test_chain_done_mark_c2 :
    ((after (.writeBackEvent .a) (portA { chainEnd with
      list := [{ doneCmd 0 with first := 0x1040 }], writeBacks := 1, writeBack := some (.flagsWrite false 0) })).port .a).doneMark
      = 0x1042 := by decide +kernel
theorem test_chain_goes_on :
    let e := (after (.writeBackNextReadAnswer .a 0x1080) (portA { chainEnd with
      list := [{ doneCmd 0 with record := { rec0 with last := 0x1040 } }], writeBack := some .nextRead })).port .a
    e.process = .running ∧ e.position = .atRecord 0x1080 := by decide +kernel
theorem test_chain_next_unaligned_halts :
    let e := (after (.nop .a { rec0 with next := 0x1001 }) (portA walking)).port .a
    e.process = .halted ∧ e.position = .atRecord 0x1000 ∧ e.flags.chainFormat = true := by decide +kernel

/-- Section 8.8, "a link fault with commands in flight". -/
theorem test_link_fault :
    (after (.linkFault .a) (portA { walking with list := [doneCmd 0], doneMark := 0x2C03, walk := .record })).port .a
    = { walking with process := .halted, cause := .linkFault, doneMark := 0x2C03, flags := latchLinkFault walking |>.flags } := by
  decide +kernel

/-! ### One step of the write path -/

theorem test_write_takes_a_slot :
    (after (.write .a (recN 2 5)) (portA walking)).staging.slots.map (fun x => (x.number, x.state, x.lbn))
      = [(0, .filling, 5)] := by decide +kernel
theorem test_write_range : ((after (.write .a (recN 2 19)) (portA walking)).port .a).list.map
    (fun c => c.status.map fun d => d.status) = [some .range] := by decide +kernel
theorem test_run_build_numbers :
    let s := after (.runBuild .a0) (gathered 0)
    s.media.queue.map (fun op => (op.kind, op.count, op.run)) = [(.writeRun, 2, 0)] ∧ s.map.reserved = 2
      ∧ s.map.runCounter = 1 := by decide +kernel
theorem test_good_run_maps : (after .writeTransferGood (flying (runOp .writeRun) .transferring (built .data live0))).lookup 6
    = some (0, 1, 0) := by decide +kernel
theorem test_fault_skips :
    ((after (.writeFault 1) (flying (runOp .writeRun) .transferring (built .data live0))).band 0).map
      (fun r => (r.wp, r.faults, r.suspect)) = some (4, 1, some (0, 1)) := by decide +kernel
theorem test_nop_in_loading_finishes : ((after (.nop .a rec0) (State.reset.setPort .a walking)).port .a).list.map
    (fun c => c.status.isSome) = [true] := by decide +kernel
theorem test_flush_held_in_loading : ((after (.flush .a rec0) (State.reset.setPort .a walking)).port .a).list.map
    (fun c => (c.held, c.status)) = [(true, none)] := by decide +kernel
theorem test_notice_count_of_one :
    (noticeWriteBack { NoticeUnit.reset with pacingCount := 1, pacingTime := 7 }).released = true := by decide +kernel

/-! ### Witnesses: states that meet the hypotheses of the statements -/

theorem witness_StepRunsTheFrontCommand : ({ ready0 with pending := [.reset] } : State).pending = .reset :: [] := rfl

theorem witness_EveryRowAnswersANextState :
    ∀ op ∈ (withMedia (fun m => { m with queue := [runOp .writeRun] }) live0).media.queue,
      ((withMedia (fun m => { m with queue := [runOp .writeRun] }) live0).opAddress op).isSome := by decide +kernel

/-- READY with a NOP waiting for Port A, which can take it. -/
def nopWaits : State := { portA walking with pending := [.nop .a rec0] }

theorem witness_step : ∃ t, step nopWaits = .next t := ⟨_, rfl⟩
theorem witness_EmptyCounted : nopWaits.EmptyCounted := by unfold State.EmptyCounted; decide +kernel
theorem witness_ListsBounded : nopWaits.ListsBounded := by intro p; cases p <;> decide +kernel
theorem witness_DoneMarked : nopWaits.DoneMarked := by intro p; cases p <;> decide +kernel
theorem witness_Numbered : (oneCmd (cmd 3 0 rec0 .none)).Numbered := by intro p; cases p <;> decide +kernel
theorem witness_Placed : nopWaits.Placed := by
  refine ⟨?_, fun h => ?_⟩
  · show nopWaits.geo.inForce ≠ none
    decide +kernel
  · exact absurd h (by decide +kernel)
theorem witness_EveryStepKeepsTheRecordAndFaulted :
    nopWaits.pending.head? ≠ some .reset ∧ nopWaits.geo.inForce = some tiny
      ∧ (nopWaits.modRecovery fun r => { r with part := .faulted }).Faulted := by
  refine ⟨by decide +kernel, by decide +kernel, rfl⟩
theorem witness_Masked : nopWaits.Masked := by constructor <;> decide +kernel
theorem witness_PhaseKept : nopWaits.PhaseKept := by unfold State.PhaseKept; decide +kernel
theorem witness_SlotsInOrder : (gathered 0).SlotsInOrder := by unfold State.SlotsInOrder; decide +kernel

/-- Two GATHERED slots charged to Port A, with a NOP waiting. -/
def charged : State :=
  let s := withStaging (fun g => { g with charges := g.charges.set .portA 2 }) (gathered 0)
  { s with pending := [.nop .a rec0] }

theorem witness_EveryStepKeepsTheChargesAndTheIndex : charged.StagingRight ∧ ∃ t, step charged = .next t :=
  ⟨⟨by unfold State.SlotsInOrder; decide +kernel, fun k => by cases k <;> decide +kernel, by decide +kernel,
    by decide +kernel⟩, _, rfl⟩

/-- Band 0 open to A0 with LBNs 5 and 6 mapped to its first two offsets. -/
def mapped : State :=
  withMap (fun m => { m with table := [⟨5, 2, 0, 0⟩] })
    (((gathered 2).putBand 0 { emptyBand with state := .opened, owner := some .a0, wp := 2, done := 2, live := 2 }).modCleaner id)

/-- What holds of each listed band record holds of each band. -/
theorem bands_all {s : State} {P : Nat → BandRecord → Prop} (n : Nat) (hn : s.bands.records.length = n)
    (h : ∀ b < n, ∀ r ∈ s.band b, P b r) : ∀ b r, s.band b = some r → P b r := fun b r hb =>
  h b (hn ▸ (List.getElem?_eq_some_iff.mp hb).1) r hb

theorem witness_EveryStepKeepsTheBandRecords :
    mapped.BandsRight ∧ mapped.PhaseKept ∧ mapped.Placed ∧ mapped.recovery.part ≠ .rebuilding := by
  refine ⟨⟨by decide +kernel, by decide +kernel, bands_all 6 (by decide +kernel) (by decide +kernel),
    bands_all 6 (by decide +kernel) (by decide +kernel), bands_all 6 (by decide +kernel) (by decide +kernel),
    fun b r st hb => ?_, fun st b => ?_, by decide +kernel, fun st k => ?_, by decide +kernel⟩,
    by unfold State.PhaseKept; decide +kernel, ⟨?_, by unfold State.ClosePlaced; decide +kernel⟩, by decide +kernel⟩
  · exact bands_all (P := fun b r => r.owner = some st → r.state = .opened ∧ (mapped.placer st).band = some b) 6
      (by decide +kernel) (by cases st <;> decide +kernel) b r hb
  · cases st <;> intro h <;> first
      | (injection h with h; subst h
         exact ⟨{ emptyBand with state := .opened, owner := some .a0, wp := 2, done := 2, live := 2 }, by decide +kernel, rfl⟩)
      | exact absurd h (by intro h; cases h)
  · cases st <;> intro h <;> exact absurd h (by intro h; cases h)
  · show mapped.geo.inForce ≠ none
    decide +kernel

/-- Port A's link DOWN, the port halted by its loss. -/
def linkGone : State := portA { PortEngine.reset with process := .halted, cause := .linkLost, linkUp := false }

theorem witness_EveryStepKeepsDownLinksQuiet : linkGone.DownLinksQuiet ∧ (linkGone.port .a).linkUp = false := by
  refine ⟨fun p => ?_, by decide +kernel⟩
  cases p <;> decide +kernel

theorem witness_AddressesOnTheDisk :
    0 < tiny.heads ∧ tiny.zones = [] ++ ⟨4, 1, 8, 6⟩ :: [] ∧ 5 < 6 ∧ 0 < tiny.heads ∧ 1 < tiny.tracks ∧ 3 < 4
      ∧ totalBands tiny ≤ 6 ∧ 3 < systemTrack tiny := by decide +kernel

theorem witness_MapChangesAreExact :
    (0 : Nat) ≤ 0 ∧ 1 ≤ (⟨0, 1, 0, 0⟩ : Extent).length ∧ MapForm mapBefore ∧ 1030 ≤ 1030
      ∧ 1 ≤ (⟨1030, 65535, 0, 0⟩ : Extent).length ∧ (⟨1030, 65535, 0, 0⟩ : Extent).length ≤ Config.extentLimit := by
  unfold MapForm; decide +kernel

theorem witness_ShockInputMaskWindowHoldAndQuiet :
    let s := live0.modSeq fun q => { q with quietTimer := true, writeHold := true }
    (s.port .a).linkUp = true ∧ (linkGone.port .a).linkUp = false ∧
    s.seq.quietTimer = true ∧ s.seq.writeHold = true ∧ (s.seq.shock ≠ .quiet ∨ s.seq.quietTimer = true)
      ∧ live0.seq.writeHold = false := by decide +kernel

theorem witness_ShockEventsQuietAndAbort_nothing_in_flight :
    (shaken live0).seq.shockFilter = true
      ∧ ∀ f, (shaken live0).seq.current = some f → writeClass f.op = false ∨ f.ended = true :=
  ⟨by decide +kernel, fun _ h => by cases h⟩

/-- A shocked state with an operation in flight. -/
def shakenWith (op : MediaOp) (q : SeqState) : State := shaken (flying op q (built .data live0))

theorem witness_ShockEventsQuietAndAbort_in_flight :
    let f := inFlightOf (runOp .writeRun) (8, 0, 0, 4)
    writeClass f.op = true ∧ f.ended = false ∧ f.op.kind ≠ .systemWrite
      ∧ (shakenWith (runOp .writeRun) .transferring).seq.current = some f
      ∧ (shakenWith (runOp .writeRun) .transferring).seq.state = .transferring
      ∧ (shakenWith (runOp .writeRun) .aborting).seq.state = .aborting
      ∧ (shakenWith (runOp .writeRun) .positioning).seq.state = .positioning
      ∧ (shakenWith (runOp .writeRun) .positioning).seq.shockFilter = true
      ∧ ((shakenWith (runOp .writeRun) .positioning).runOf f.op).isSome = true := by decide +kernel
theorem witness_ShockEventsQuietAndAbort_system_write :
    writeClass sysOp = true ∧ sysOp.kind = .systemWrite
      ∧ (shakenWith sysOp .positioning).seq.current = some (inFlightOf sysOp (8, 0, 0, 4)) := by decide +kernel

/-- QUIET with band 0, owned by A0 and with a suspect window, affected. -/
def quietState (timer hold : Bool) : State :=
  let r : BandRecord := { emptyBand with state := .opened, owner := some .a0, wp := 4, done := 4, suspect := some (0, 3) }
  (live0.putBand 0 r).modSeq fun q => { q with shock := .quiet, quietTimer := timer, writeHold := hold, affected := [0] }

theorem witness_ShockInputMaskWindowHoldAndQuiet_ends :
    (quietState true false).seq.quietTimer = true ∧ (quietState true false).seq.writeHold = false
      ∧ (quietState false true).seq.writeHold = true ∧ (quietState false true).seq.shock = .quiet
      ∧ (quietState false true).seq.quietTimer = false ∧ 0 ∈ (quietState true false).seq.affected
      ∧ ((quietState true false).band 0).map (fun r => (r.suspect.isSome, r.owner.isSome)) = some (true, true) := by
  decide +kernel

theorem witness_SeekAnswersReadErrorsAndReadinessLost :
    let s := flying (runOp .writeRun) .positioning (built .data live0)
    let f := inFlightOf (runOp .writeRun) (8, 0, 0, 4)
    s.seq.state = .positioning ∧ s.seq.current = some f ∧ s.seq.staleSeek = false ∧ f.ended = false ∧ f.seekRetries < 4
      ∧ 4 ≤ ({ f with seekRetries := 4 } : InFlight).seekRetries ∧ writeClass f.op = true
      ∧ writeClass (inFlightOf readOp (8, 0, 0, 4)).op = false := by decide +kernel

theorem witness_SeekAnswersReadErrorsAndReadinessLost_dead :
    (flying (runOp .writeRun) .transferring live0).seq.state = .transferring
      ∧ (flying (runOp .writeRun) .positioning live0).seq.state = .positioning
      ∧ ((flying sysOp .positioning live0).modSeq fun q => { q with staleSeek := true, current := none }).seq.staleSeek = true
      := by decide +kernel

/-- A CONFIG CLOSE of Port A that waits for the ready report. -/
def closing : State :=
  let w : CloseWork := { port := .a, cmd := 0, record := tiny, step := .awaitReady, reissues := 0 }
  ((State.reset.setPort .a { walking with list := [cmd 0 10 rec0 .close], nextId := 1 }).modRecovery fun r =>
    { r with part := .unconfigured, close := some w })

theorem witness_ReadyReportStoresTheCylinderCount :
    (closing.recovery.close.map fun w => w.step) = some .awaitReady ∧ lastCylinder tiny < 100
      ∧ (closing.command .a 0).isSome = true ∧ live0.recovery.close = none
      ∧ (flying (runOp .writeRun) .waitingReady live0).seq.state = .waitingReady := by decide +kernel

/-- The channel NOT READY with one queued operation. -/
def queued (op : MediaOp) (s : State) : State :=
  withMedia (fun m => { m with queue := [op] }) (s.modSeq fun q => { q with ready := false })

/-- A verify run of offsets 0 and 1 of band 0, and a verify of that band with two runs to go. -/
def verifyOp : MediaOp := { plainOp .verifyRun (.band 0 0) 2 (.stream .a0) with id := 5, slots := [some 1, some 2] }
def verify0 : Verify := { band := 0, first := 0, last := 3, remaining := 2, fails := [] }

/-- The footer write of band 0 built and queued: its write pointer is 8, its done mark C = 7. -/
def footerBuilt : State :=
  ((queued (runOp .footerWrite) (built .footer live0)).putBand 0
    { emptyBand with state := .opened, owner := some .a0, wp := 8, done := 7 })

theorem witness_NotReadyCompletions :
    let s := queued (runOp .writeRun) (built .data ready0)
    let u := flying (runOp .writeRun) .waitingReady (built .data ready0)
    s.media.queue = [] ++ runOp .writeRun :: [] ∧ s.seq.ready = false ∧ s.recovery.part ≠ .faulted
      ∧ ((s.runOf (runOp .writeRun)).map fun x => (x.1, x.2.kind, x.2.band)) = some (.a0, .data, 0)
      ∧ (s.band 0).isSome = true ∧ (s.placer .a0).retention = []
      ∧ u.seq.state = .waitingReady ∧ (u.seq.current.map fun f => f.op) = some (runOp .writeRun)
      ∧ (u.runOf (runOp .writeRun)).isSome = true ∧ u.seq.ready = false ∧ writeClass (runOp .writeRun) = true := by
  decide +kernel

theorem witness_NotReadyCompletions_footer_and_verify :
    let s := footerBuilt
    let u := (queued verifyOp live0).modSeq fun q => { q with verifies := [verify0] }
    ((s.runOf (runOp .footerWrite)).map fun x => (x.1, x.2.kind, x.2.band)) = some (.a0, .footer, 0)
      ∧ ((s.openBand .a0).map fun x => (x.1, x.2.wp, x.2.done, x.2.suspect)) = some (0, (s.shape 0).size, (s.shape 0).capacity, none)
      ∧ u.media.queue = [] ++ verifyOp :: [] ∧ verifyOp.kind = .verifyRun
      ∧ ∀ v ∈ u.seq.verifies, v.band = opBand verifyOp ∧ 1 < v.remaining := by decide +kernel

theorem witness_NotReadyCompletions_reads_and_system :
    let s := (queued readOp (oneCmd (cmd 0 1 (recN 2 5) (.read 2 false 0 0 0 [])))).putBand 0
      { emptyBand with state := .opened, refs := 1 }
    let header : MediaOp := { plainOp .systemRead (.system 3) 1 .recovery with task := .rebuildRead }
    let u := (queued header live0).modRecovery fun r => { r with part := .rebuilding, rebuild := some Rebuild.start }
    let v := (queued sysOp live0).modRecovery fun r => { r with journalWrite := { r.journalWrite with blocks := [0] } }
    (s.command .a readOp.command).isSome = true ∧ readOp.slots = [1, 2].map some ∧ readOp.blocks.length = [1, 2].length
      ∧ ((s.band (opBand readOp)).map fun r => r.state) = some .opened
      ∧ u.recovery.part = .rebuilding ∧ u.recovery.rebuild.isSome = true ∧ header.kind = .systemRead
      ∧ header.task = .rebuildRead ∧ v.geo.inForce = some tiny ∧ v.recovery.journalWrite.blocks = 0 :: []
      ∧ 0 + 0 + (if v.seq.current.isSome then 1 else 0) + v.media.entryWait.length < Config.queueLimit := by decide +kernel

theorem witness_NotReadyCompletions_issued_again :
    let load : MediaOp := { plainOp .systemRead (.system 0) 1 .recovery with task := .loadGeometry false }
    let s := queued load State.reset
    let u := (queued (systemWriteOp .checkpointWrite 4 []) live0).modRecovery fun r => { r with
      checkpoint := { r.checkpoint with cursor := 1 } }
    let w : CloseWork := { port := .a, cmd := 0, record := tiny, step := .image 1 1, reissues := 0 }
    let v := (queued (systemWriteOp .closeWrite 4 []) closing).modRecovery fun r => { r with close := some w }
    load.kind = .systemRead ∧ load.task = .loadGeometry false ∧ s.recovery.part = .loading ∧ s.media.queue = [] ++ load :: []
      ∧ s.seq.ready = false ∧ u.geo.inForce = some tiny ∧ u.recovery.checkpoint.cursor < imageBlocks tiny
      ∧ v.recovery.close = some w ∧ w.step ≠ .awaitReady ∧ v.recovery.part ≠ .faulted
      ∧ (systemWriteOp .rewriteCopy 0 []).kind = .systemWrite ∧ (systemWriteOp .rewriteCopy 0 []).task = .rewriteCopy := by
  decide +kernel

/-- A run or footer write in flight in TRANSFERRING. -/
def transferring (k : OpKind) (r : RunKind) : State := flying (runOp k) .transferring (built r live0)

theorem witness_GoodWritesAreAppliedAndCloseBands :
    let s := transferring .writeRun .data
    s.seq.state = .transferring ∧ (s.seq.current.map fun f => f.op) = some (runOp .writeRun)
      ∧ ((s.runOf (runOp .writeRun)).map fun x => (x.1, x.2.kind, x.2.reserved)) = some (.a0, .data, 2)
      ∧ ((s.band 0).map fun r => r.state) = some .opened ∧ s.map.writePhase = false ∧ s.map.pendingApply = []
      ∧ (∀ x ∈ s.slotsOf [1, 2], x.kind = some .host) ∧ ((s.slotsOf [1, 2]).map fun x => x.lbn).Nodup := by decide +kernel

/-- A run of one block, slot 1 of LBN 5, in flight to offset 0 of band 0; the map has LBN 5 at offset 3 of band 2, or nowhere. -/
def oneBlock (x : Slot) (there staged : Bool) : State :=
  let run : OutstandingRun :=
    { op := 5, kind := .data, band := 0, first := 0, count := 1, slots := [1], number := 0, reserved := 2, claimed := false }
  withMap (fun m => { m with table := if there then [⟨5, 1, 2, 3⟩] else [] })
    (withStaging (fun g => { g with slots := [x], index := if staged then [⟨5, 4⟩] else [] })
      ((transferring .writeRun .data).modPlacer .a0 fun y => { y with run := some run }))

def relocated1 : Slot := { hostSlot 1 5 .writing with kind := some .relocated, source := some (2, 3) }
def replaced1 : Slot := { hostSlot 1 5 .writing with kind := some .replaced, damaged := some (2, 3) }

theorem test_relocated_commits : (after .writeTransferGood (oneBlock relocated1 true false)).lookup 5 = some (0, 0, 0) := by
  decide +kernel
theorem test_relocated_staged_is_rechecked :
    let t := after .writeTransferGood (oneBlock relocated1 true true)
    t.lookup 5 = some (2, 3, 0) ∧ t.cleaner.recheck = [(3, 5)] ∧ t.staging.slots = [] := by decide +kernel

theorem witness_GoodWritesAreAppliedAndCloseBands_relocated :
    let s := oneBlock relocated1 true false
    s.seq.state = .transferring ∧ (s.seq.current.map fun f => f.op) = some (runOp .writeRun)
      ∧ ((s.runOf (runOp .writeRun)).map fun x => (x.1, x.2.kind, x.2.reserved, x.2.slots)) = some (.a0, .data, 2, [1])
      ∧ ((s.band 0).map fun r => r.state) = some .opened ∧ s.map.writePhase = false ∧ s.recovery.part ≠ .faulted
      ∧ s.slot 1 = some relocated1 ∧ mapsTo s.map.current 5 2 3 = true ∧ s.indexed 5 = none
      ∧ ((oneBlock relocated1 true true).indexed 5).isSome = true
      ∧ mapsTo (oneBlock relocated1 false false).map.current 5 2 3 = false
      ∧ (oneBlock replaced1 true false).slot 1 = some replaced1 := by decide +kernel

theorem witness_GoodWritesAreAppliedAndCloseBands_footer :
    let s := transferring .footerWrite .footer
    s.seq.state = .transferring ∧ (s.seq.current.map fun f => f.op.kind) = some .footerWrite
      ∧ ((s.runOf (runOp .footerWrite)).map fun x => x.2.kind) = some .footer
      ∧ ((s.band 0).map fun r => r.state) = some .opened := by decide +kernel

theorem witness_WriteFaultSkipsAndVerifies :
    let s := transferring .writeRun .data
    s.seq.state = .transferring ∧ ((s.runOf (runOp .writeRun)).map fun x => x.2.kind) = some .data
      ∧ ((s.band 0).map fun r => r.owner.isSome) = some true
      ∧ (∀ n ∈ (s.placer .a0).retention, n ∉ [1, 2] ++ (s.placer .a0).queue) := by decide +kernel

theorem witness_WriteFaultSkipsAndVerifies_footer :
    let s := transferring .footerWrite .footer
    let u := flying (runOp .footerWrite) .aborting (built .footer live0)
    s.seq.state = .transferring ∧ (s.seq.current.map fun f => f.op.kind) = some .footerWrite
      ∧ ((s.runOf (runOp .footerWrite)).map fun x => x.2.kind) = some .footer
      ∧ ((s.band 0).map fun r => r.owner.isSome) = some true
      ∧ u.seq.state = .aborting ∧ writeClass (runOp .footerWrite) = true
      ∧ ((u.runOf (runOp .footerWrite)).map fun x => x.2.kind) = some .footer := by decide +kernel

theorem test_footer_fault_keeps_the_pointers :
    let t := after (.writeFault 1) (transferring .footerWrite .footer)
    (t.band 0).map (fun r => (r.wp, r.faults, r.suspect.isSome)) = some (2, 1, true) ∧ (t.placer .a0).run = none := by
  decide +kernel

theorem witness_ShockEventsQuietAndAbort_answers :
    let s := flying (runOp .writeRun) .aborting (built .data live0)
    let u := flying sysOp .aborting live0
    s.seq.state = .aborting ∧ writeClass (runOp .writeRun) = true ∧ (s.runOf (runOp .writeRun)).isSome = true
      ∧ (s.band 0).isSome = true ∧ u.seq.state = .aborting ∧ writeClass sysOp = true ∧ sysOp.kind = .systemWrite := by
  decide +kernel

/-- The last verify run of band 0 in flight, its two blocks HELD for stream A0, with a write fault count. -/
def verifying (faults : Nat) : State :=
  let x (n lbn o : Nat) : Slot := { hostSlot n lbn .held with place := some { band := 0, offset := o, track := 0 } }
  let rec0 : BandRecord :=
    { emptyBand with state := .opened, owner := some .a0, wp := 4, done := 4, live := 1, faults := faults, suspect := some (0, 3) }
  let s := (withStaging (fun g => { g with slots := [x 1 5 0, x 2 6 1] }) live0).putBand 0 rec0
  ((flying verifyOp .transferring s).modPlacer .a0 fun y => { y with band := some 0, retention := [1, 2] }).modSeq fun q =>
    { q with verifies := [{ verify0 with remaining := 1 }] }

/-- A block as a verify reads it: the data of an unwritten block, with a tag of an LBN. -/
def readBack (lbn : Nat) : MediaBlock :=
  { content := .user zeroBlock, tag := some { entry := { kind := .host, lbn := lbn, run := 0, source := none }, check := 0 } }

theorem test_verify_replaces :
    let t := after (.readTransferGood [readBack 5, readBack 9]) (verifying 2)
    (t.placer .a0).queue = [2] ∧ (t.placer .a0).retention = [1]
      ∧ ((t.slot 2).map fun x => (x.kind, x.damaged)) = some (some .replaced, some (0, 1)) := by decide +kernel
theorem test_verify_retires :
    let t := after (.readTransferGood [readBack 5, readBack 6]) (verifying 3)
    (t.band 0).map (fun r => r.state) = some .retired ∧ t.cleaner.retired = [(0, .awaiting)]
      ∧ (t.recovery.journal.map fun e => e.record.kind) = [.retire 0] := by decide +kernel

theorem witness_VerifiesReadTheirTracksAndReplaceOrRetire :
    let s := verifying 3
    s.seq.state = .transferring ∧ (s.seq.current.map fun f => (f.op, f.next, f.delivered)) = some (verifyOp, 0, [])
      ∧ verifyOp.kind = .verifyRun ∧ [readBack 5, readBack 9].length = verifyOp.count ∧ verifyOp.slots.length = verifyOp.count
      ∧ s.seq.verifies = [{ verify0 with remaining := 1 }] ∧ verify0.band = opBand verifyOp
      ∧ ((s.band 0).map fun r => (r.owner, r.faults, decide (0 < r.live))) = some (some .a0, 3, true)
      ∧ (((verifying 2).band 0).map fun r => decide (r.faults ≠ 3)) = some true
      ∧ (s.placer .a0).retention.Nodup ∧ (∀ n ∈ (s.placer .a0).retention, n ∉ (s.placer .a0).queue)
      ∧ s.recovery.journal.length < Config.journalPlaces ∧ s.recovery.part ≠ .faulted := by decide +kernel

/-- A read in flight at block 0 of two, with a number of retries made of that block. -/
def reading (retries : Nat) : State :=
  (flying readOp .transferring live0).modSeq fun q =>
    { q with current := q.current.map fun f => { f with retry := some (0, retries) } }

theorem witness_SeekAnswersReadErrorsAndReadinessLost_read_error :
    (reading 3).seq.state = .transferring ∧ ((reading 4).seq.current.map fun f => f.retry) = some (some (0, 4))
      ∧ writeClass readOp = false ∧ 0 + 1 < readOp.count ∧ 0 + ([media0].length + 1) = readOp.count := by decide +kernel

theorem witness_PortReadsArePushedAndCounted :
    let s := (flying readOp .transferring (oneCmd (cmd 0 1 (recN 2 5) (.read 2 false 0 0 0 [])))).putBand 0
      { emptyBand with state := .opened, owner := some .a0, wp := 4, done := 4, refs := 1 }
    s.seq.state = .transferring ∧ (s.seq.current.map fun f => (f.op, f.next, f.delivered)) = some (readOp, 0, [])
      ∧ readOp.kind = .readRun ∧ readOp.origin = .port .a ∧ [media0, media0].length = readOp.count
      ∧ readOp.slots = [1, 2].map some ∧ [1, 2].length = readOp.count ∧ readOp.blocks.length = readOp.count
      ∧ (s.command .a readOp.command).isSome = true ∧ ((s.band (opBand readOp)).map fun r => r.state) = some .opened := by
  decide +kernel

theorem witness_TheArbiterGrantsAndTheOldestWaiterEnters :
    grants.seq.state = .idle ∧ grants.seq.current = none ∧ grants.seq.ready = true ∧ grants.recovery.part ≠ .faulted
      ∧ (grants.arbiterChoice.map fun g => (grants.opAddress g.op).isSome) = some true ∧ ready0.seq.ready = false := by
  decide +kernel

/-- The same with a verify run of the stream A1 as well, and with one of its operations aged. -/
def grantsTo (k : Nat) : State :=
  withMedia (fun m => { m with queue := m.queue.map fun op => { op with aged := decide (op.id = k) } }) grants

theorem test_grant_aged_first : ((grantsTo 2).arbiterChoice.map fun g => (g.cls, g.op.id, g.turn4)) = some (1, 2, .a1) := by
  decide +kernel
theorem test_grant_share_full :
    let s := withMedia (fun m => { m with share := 7 }) grants
    (s.arbiterChoice.map fun g => (g.cls, g.op.id)) = some (5, 3) ∧ (after .arbiterGrant s).media.share = 0 := by decide +kernel

theorem witness_TheArbiterGrantsAndTheOldestWaiterEnters_choices :
    let ids (s : State) (n : Nat) : List Nat := (s.media.queue.filter fun op =>
      s.eligible op && decide (opClass s.cleaner.mode op = n)).map fun op => op.id
    (grantsTo 2).media.queue.any (fun op => op.aged && (grantsTo 2).eligible op) = true
      ∧ ids grants 1 = [] ∧ ids grants 2 = [] ∧ ids grants 3 = [5, 6, 7] ∧ ids grants 4 = [1, 2] ∧ ids grants 5 = [3, 4]
      ∧ (grants.media.queue.filter fun op => decide (op.id = 5)).map (fun op => op.origin)
        = [turn3Origin (iterate turn3Next 0 grants.media.turn3)]
      ∧ (∀ j < 1, ∀ op ∈ grants.media.queue, op.origin ≠ .stream (iterate streamNext j grants.media.turn4))
      ∧ iterate streamNext 5 grants.media.turn4 = .b2
      ∧ grants.seq.state = .idle ∧ grants.seq.current = none ∧ grants.seq.ready = true ∧ grants.recovery.part ≠ .faulted
      ∧ (grants.arbiterChoice.map fun g => (grants.opAddress g.op).isSome) = some true
      ∧ ids (queued verifyOp live0) 2 = [5] ∧ ids (queued verifyOp live0) 1 = []
      ∧ ids (queued { readOp with origin := .cleaner } live0) 5 = [5] := by decide +kernel

theorem witness_TheArbiterGrantsAndTheOldestWaiterEnters_entry :
    let s := withMedia (fun m => { m with entryWait := [.op sysOp] }) live0
    let u := withMedia (fun m => { m with queue := List.replicate 64 sysOp }) live0
    s.queueCount < 64 ∧ s.media.entryWait = .op sysOp :: [] ∧ 64 ≤ u.queueCount := by decide +kernel

/-- The placer of A0 at the head of the entry wait list, for a run of which nothing depends. -/
def placerWaiting (rest : List Waiter) (s : State) : State :=
  withMedia (fun m => { m with entryWait := .placer .a0 { kind := .data, slots := [1, 2], count := 2 } :: rest }) s

theorem test_waiting_placer_builds :
    let t := after .mediaQueueEntry (placerWaiting [] (gathered 0))
    ((t.placer .a0).run.map fun k => (k.first, k.count)) = some (0, 2) ∧ t.media.entryWait = []
      ∧ (t.media.queue.map fun op => (op.kind, op.count)) = [(.writeRun, 2)] := by decide +kernel

theorem witness_TheArbiterGrantsAndTheOldestWaiterEnters_entry_placer :
    let s := placerWaiting [] (gathered 0)
    let u := placerWaiting [] (gathered 7)
    let v := placerWaiting [] ((gathered 2).modPlacer .a0 fun x => { x with pad := .padding 7 })
    let q := (placerWaiting [.op sysOp] (gathered 0)).modRecovery fun r => { r with
      checkpoint := { r.checkpoint with state := .quiescing } }
    s.queueCount < 64 ∧ s.mayBuild = true ∧ (s.openBand .a0).isSome = true ∧ s.wantsFooter .a0 = false ∧ s.wantsPad .a0 = false
      ∧ s.wantsRun .a0 = true ∧ s.recordsCover .a0 = true ∧ s.map.entryFree (.placer .a0) = true
      ∧ u.mayBuild = true ∧ u.wantsFooter .a0 = true ∧ v.mayBuild = true ∧ v.wantsFooter .a0 = false ∧ v.wantsPad .a0 = true
      ∧ q.queueCount < 64 ∧ q.mayBuild = false ∧ q.wantsRun .a0 = true ∧ q.recordsCover .a0 = true := by decide +kernel

/-- The same waiter with no record free and a checkpoint QUIESCING. -/
def shortAndQuiescing : State :=
  (placerWaiting [.op sysOp] (withMap (fun m => { m with freeCount := 2 }) (gathered 0))).modRecovery fun r => { r with
    checkpoint := { r.checkpoint with state := .quiescing } }

/-- Short records come first: the placer waits for them also while it may not build (R53, R72). -/
theorem test_short_placer_waits_for_records_while_quiescing :
    let t := after (.runBuild .a0) shortAndQuiescing
    let u := after .mediaQueueEntry shortAndQuiescing
    (t.map.recordWait, (t.placer .a0).mapWait, (t.placer .a0).run) = ([.placer .a0], true, none)
      ∧ (u.map.recordWait, (u.placer .a0).mapWait, u.media.entryWait) = ([.placer .a0], true, []) := by decide +kernel

theorem witness_TheArbiterGrantsAndTheOldestWaiterEnters_entry_short :
    let q := shortAndQuiescing
    q.queueCount < 64 ∧ q.mayBuild = false ∧ q.wantsRun .a0 = true ∧ q.recordsCover .a0 = false
      ∧ .placer .a0 ∉ q.map.recordWait := by decide +kernel

theorem witness_RunFooterAndPadBuilds :
    let s := gathered 0
    s.mayBuild = true ∧ s.wantsRun .a0 = true ∧ s.recordsCover .a0 = true ∧ s.map.entryFree (.placer .a0) = true
      ∧ s.queueRoom = true ∧ (s.openBand .a0).isSome = true ∧ (∀ x ∈ s.staging.slots, x.superseded = false)
      ∧ (s.placer .a0).queue.Nodup ∧ (s.plannedRun .a0).length = 2 := by decide +kernel

theorem test_run_build_writing :
    ((after (.runBuild .a0) (gathered 2)).staging.slots.map fun x => (x.state, x.place.map fun q => (q.band, q.offset, q.track)))
      = [(.writing, some (0, 2, 0)), (.writing, some (0, 3, 0))] := by decide +kernel

/-- Stream A0 with two blocks to place and no record free, waiting for records. -/
def noRecords (waits : Bool) : State :=
  withMap (fun m => { m with freeCount := 2, recordWait := if waits then [.placer .a0] else [] }) (gathered 0)

/-- A write phase whose entry places are all taken. -/
def noEntries (s : State) : State :=
  withMap (fun m => { m with writePhase := true, pendingApply := List.replicate 4096 [] }) s

theorem witness_RunsWaitForRecordsPlacesAndCheckpoints :
    let s := noRecords true
    let full := withMap (fun m => { m with freeCount := 3 }) s
    shortAndQuiescing.mayBuild = false ∧ live0.wantsRun .a0 = false
      ∧ (noRecords false).mayBuild = true ∧ (noRecords false).wantsRun .a0 = true ∧ (noRecords false).recordsCover .a0 = false
      ∧ .placer .a0 ∈ s.map.recordWait ∧ s.wantsRun .a0 = true
      ∧ .placer .a0 ∉ (noRecords false).map.recordWait ∧ s.map.recordWait = [.placer .a0] ∧ s.recordsCover .a0 = false
      ∧ full.mayBuild = true ∧ full.wantsRun .a0 = true ∧ full.map.entryFree (.placer .a0) = true ∧ full.queueRoom = true
      ∧ full.recordsCover .a0 = true
      ∧ (full.modRecovery fun r => { r with checkpoint := { r.checkpoint with state := .quiescing } }).mayBuild = false
      ∧ (noEntries (gathered 0)).mayBuild = true ∧ (noEntries (gathered 0)).wantsRun .a0 = true
      ∧ (noEntries (gathered 0)).recordsCover .a0 = true ∧ (noEntries (gathered 0)).map.entryFree (.placer .a0) = false
      ∧ .placer .a0 ∉ (noEntries (gathered 0)).map.phaseWait
      ∧ 281474976710656 ≤ (withMap (fun m => { m with runCounter := 281474976710656 }) (gathered 0)).map.runCounter := by
  decide +kernel

theorem witness_RunFooterAndPadBuilds_footer_and_pad :
    let s := gathered 7
    let u := (gathered 2).modPlacer .a0 fun x => { x with pad := .padding 7 }
    s.mayBuild = true ∧ s.queueRoom = true ∧ (s.openBand .a0).isSome = true ∧ s.wantsFooter .a0 = true
      ∧ u.mayBuild = true ∧ u.queueRoom = true ∧ (u.openBand .a0).isSome = true ∧ u.wantsPad .a0 = true := by decide +kernel

theorem witness_BandGrantsAndPlacerTimers :
    emptyRecords (askA0 live0).bands.records = (askA0 live0).bands.emptyCount ∧ .cleaner ∉ (askA0 live0).bands.openWait
      ∧ (askA0 live0).bands.openWait.head? = some .a0 ∧ 3 ≤ (askA0 live0).bands.emptyCount
      ∧ .cleaner ∈ (live0.askBand .cleaner).bands.openWait ∧ 1 ≤ (live0.askBand .cleaner).bands.emptyCount
      ∧ live0.bands.openWait = [] := by decide +kernel

/-- A WRITE of Port A in stream A0 whose two GATHERED blocks wait. -/
def waitingWrite (band records : Bool) : State :=
  let s := ((withStaging (fun g => { g with slots := g.slots.map fun x => { x with command := some (.a, 0) } })
    (gathered 0)).setPort .a { walking with list := [cmd 0 2 (recN 2 5) (.write 2 2 [])], nextId := 1 })
  s.modPlacer .a0 fun x => { x with bandWait := band, mapWait := records }

theorem witness_BandGrantsAndPlacerTimers_timers :
    (((gathered 0).modPlacer .a0 fun x => { x with idleTimer := true }).placer .a0).idleTimer = true
      ∧ (((waitingWrite true false).port .a).list.map fun c => (c.id, c.status)) = [(0, none)]
      ∧ ((waitingWrite true false).placer .a0).bandWait = true ∧ (waitingWrite true false).headingWrites .a0 = [(.a, 0)]
      ∧ ((waitingWrite false true).placer .a0).mapWait = true ∧ writesOf ((waitingWrite false true).plannedRun .a0) = [(.a, 0)]
      ∧ (waitingWrite false true).recordsCover .a0 = true
      ∧ (withMap (fun m => { m with freeCount := 2 }) (waitingWrite false true)).recordsCover .a0 = false
      ∧ ((gathered 0).modPlacer .a0 fun x => { x with bandWait := true }).headingWrites .a0 = [] := by decide +kernel

/-- Requests of two WRITEs on the account of Port A, whose charge is as given. -/
def asking (charge : Nat) : State :=
  withStaging (fun g => { g with
    charges := g.charges.set .portA charge, requests := g.requests.set .portA [.fill .a 0 .a0 5, .fill .a 1 .a1 9] }) live0

theorem test_slot_grant_oldest_only :
    let t := after (.slotGrant .portA) (asking 5)
    t.staging.slots.map (fun x => (x.number, x.lbn)) = [(0, 5)] ∧ t.staging.requests.get .portA = [.fill .a 1 .a1 9] := by
  decide +kernel

theorem witness_SlotsAreGrantedFilledAndAccepted :
    let s := asking 5
    let u := asking 6
    s.staging.charges.get .portA < accountLimit s.staging.size .portA
      ∧ s.staging.requests.get .portA = .fill .a 0 .a0 5 :: [.fill .a 1 .a1 9] ∧ s.staging.streamAccount .a0 = .portA
      ∧ accountLimit s.staging.size .portA ≤ s.staging.charges.get .portA + 1
      ∧ accountLimit u.staging.size .portA ≤ u.staging.charges.get .portA ∧ u.staging.requests.get .portA ≠ [] := by
  decide +kernel

/-- A WRITE of Port A of `n` blocks from LBN 5 whose first pull is under way. -/
def pulling (n : Nat) : State :=
  withStaging (fun g => { g with slots := [{ hostSlot 1 5 .filling with command := some (.a, 0) }] })
    (oneCmd (cmd 0 2 (recN n 5) (.write 1 0 [])))

theorem witness_SlotsAreGrantedFilledAndAccepted_pull :
    ((pulling 1).pullOf .a 0).map (fun q => (q.slot, q.address)) = some (1, 0x2000) ∧ ((pulling 1).slot 1).isSome = true
      ∧ (((pulling 1).command .a 0).map fun c => (c.work, decide (c.record.count.toNat ≤ 1))) = some (.write 1 0 [], true)
      ∧ (((pulling 2).command .a 0).map fun c => decide (1 < c.record.count.toNat)) = some true
      ∧ (pulling 1).staging.slots.Pairwise (fun x y => x.number < y.number) := by decide +kernel

/-- LBN 5 pulled into slot 3 and staged in slot 1, and in the second state 6 of a WRITING group 5, 6, 7 with no record free. -/
def accepting : State :=
  (withStaging (fun g => { g with slots := g.slots ++ [hostSlot 3 5 .filling] }) (gathered 0)).setPort .a
    { walking with pulled := [3] }
def acceptWaits : State :=
  let run : OutstandingRun :=
    { op := 5, kind := .data, band := 0, first := 0, count := 3, slots := [0, 1, 2], number := 0, reserved := 2, claimed := false }
  (withMap (fun m => { m with freeCount := 3, reserved := 2 }) ((withStaging (fun g => { g with
    slots := [hostSlot 0 5 .writing, hostSlot 1 6 .writing, hostSlot 2 7 .writing, hostSlot 3 6 .filling]
    index := [⟨5, 0⟩, ⟨6, 1⟩, ⟨7, 2⟩] }) live0).modPlacer .a0 fun x => { x with run := some run })).setPort .a
      { walking with pulled := [3] }

theorem witness_SlotsAreGrantedFilledAndAccepted_acceptance :
    (accepting.port .a).pulled = 3 :: [] ∧ accepting.slot 3 = some (hostSlot 3 5 .filling)
      ∧ accepting.interiorFor (hostSlot 3 5 .filling) = none ∧ accepting.indexed 5 = some 1
      ∧ (acceptWaits.port .a).pulled = 3 :: [] ∧ acceptWaits.slot 3 = some (hostSlot 3 6 .filling)
      ∧ acceptWaits.interiorFor (hostSlot 3 6 .filling) = some 1 ∧ acceptWaits.map.available < 2
      ∧ .accept .a 1 ∉ acceptWaits.map.recordWait := by decide +kernel

/-- A TRIM of Port A of LBNs 5 to 6, handed to the Map Unit. -/
def trimming (free : Nat) (waits : List RecordRequest) : State :=
  withMap (fun m => { m with freeCount := free, recordWait := waits, trims := [{ port := .a, cmd := 0, first := 5, last := 6 }] })
    (oneCmd (cmd 0 3 { rec0 with count := 2, lbn := 5 } (.trim false)))

theorem witness_TrimsAreAppliedOrWait :
    let s := trimming 10 []
    ((s.findTrim .a 0).map fun t => (t.port, t.cmd, decide (t.first ≤ t.last), decide (s.trimNeed t ≤ s.map.available)))
        = some (.a, 0, true, true)
      ∧ s.trimPlaces = true ∧ s.map.entryFree (.trim .a 0) = true ∧ s.map.writePhase = false
      ∧ s.recovery.journal.length + 1 < Config.journalPlaces
      ∧ ((s.command .a 0).map fun c => durableBit c.record.flags) = some false := by decide +kernel

theorem witness_TrimsAreAppliedOrWait_waits :
    let short := trimming 0 []
    (withMap (fun m => { m with runCounter := 281474976710656 }) (trimming 10 [])).trimPlaces = false
      ∧ short.trimPlaces = true ∧ short.map.entryFree (.trim .a 0) = true
      ∧ ((short.findTrim .a 0).map fun t => decide (short.map.available < short.trimNeed t)) = some true
      ∧ .trim .a 0 ∉ short.map.recordWait ∧ (noEntries short).trimPlaces = true
      ∧ (noEntries short).map.entryFree (.trim .a 0) = false ∧ .trim .a 0 ∉ (noEntries short).map.phaseWait
      ∧ .trim .a 0 ∈ (trimming 0 [.trim .a 0]).map.recordWait ∧ (trimming 0 [.trim .a 0]).trimCovered .a 0 = false
      ∧ .trim .a 0 ∈ (trimming 10 [.trim .a 0]).map.recordWait ∧ (trimming 10 [.trim .a 0]).trimCovered .a 0 = true := by
  decide +kernel

theorem witness_CleanerScores :
    1 ≤ (fullBand 38249 4294967290).live ∧ (fullBand 38249 4294967290).live < 38250
      ∧ (fullBand 38249 4294967290).closeNumber = some 4294967290 := by decide +kernel

/-- SELECTING at the end of a scan, with band 0 FULL and 1 block live, or with no FULL band. -/
def selecting (full : Bool) : State :=
  let t : TableScan := { mode := .urgent, cursor := 0, kept := none }
  ((if full then live0.putBand 0 (fullBand 1 0) else live0).modCleaner fun c =>
    { c with state := .selecting, mode := .urgent, table := some t })

theorem witness_VictimScanKeepsABestBandAndNamesIt :
    let t : TableScan := { mode := .urgent, cursor := 0, kept := none }
    ((selecting true).scanRest t).kept.isSome = true ∧ (selecting true).cleaner.state = .selecting
      ∧ (selecting true).cleaner.table = some t ∧ (selecting true).recovery.part = .ready
      ∧ (((selecting true).scanRest t).kept.map fun x => ((selecting true).band x.1).map fun r => r.state) = some (some .full)
      ∧ ((selecting false).scanRest t).kept = none := by decide +kernel

/-- The end of a scan that kept band 0, which is EMPTY by now, with band 2 RETIRED and marked as given. -/
def refused (m : RetiredMark) : State :=
  (live0.putBand 2 { emptyBand with state := .retired, live := 1, wp := 4, done := 4 }).modCleaner fun c =>
    { c with state := .selecting, mode := .urgent, retired := [(2, m)]
             table := some { mode := .urgent, cursor := 6, kept := some (0, 9) } }

theorem test_awaiting_band_is_taken_first :
    let t := (after .victimScanEnd (refused .awaiting)).cleaner
    t.victim = some (2, .retired) ∧ t.state = .relocating ∧ t.retired = [(2, .awaiting)] := by decide +kernel

theorem witness_VictimScanKeepsABestBandAndNamesIt_refused :
    let t : TableScan := { mode := .urgent, cursor := 6, kept := some (0, 9) }
    let s := refused .awaiting
    s.cleaner.state = .selecting ∧ s.cleaner.table = some t ∧ s.recovery.part = .ready ∧ (s.scanRest t).kept = some (0, 9)
      ∧ ((s.band 0).map fun r => r.state) = some .empty ∧ (2, .awaiting) ∈ s.cleaner.retired
      ∧ ((s.band 2).map fun q => decide (q.live ≤ s.cleanerRoom)) = some true
      ∧ (refused .attempted).cleaner.retired = [(2, .attempted)] := by decide +kernel

/-- A read of the Cleaner in flight from band 0, the victim; its slot 1 is FILLING. -/
def cleanerReads (scan : Bool) (kind : ScanKind) (first count : Nat) : State :=
  let op : MediaOp := { plainOp .readRun (.band 0 first) count .cleaner with
    id := 5, scan := scan, slots := if scan then [] else [some 1] }
  let s := (withStaging (fun g => { g with slots := [newSlot 1 .cleaning 5 (.stream .cleaner)] }) live0).putBand 0
    { emptyBand with state := .cleaning, refs := 1 }
  (flying op .transferring s).modCleaner fun c => { c with
    state := .relocating, victim := some (0, .cleaning), scan := some { kind := kind, cursor := 0, ranges := [] }, outstanding := 1 }

theorem test_cleaner_read_is_gathered :
    let t := after (.readTransferGood [media0]) (cleanerReads false .tags 0 1)
    (t.placer .cleaner).queue = [1] ∧ ((t.slot 1).map fun x => (x.state, x.kind)) = some (.gathered, some .relocated) := by
  decide +kernel

theorem witness_CleanerReadsAreTaken :
    let s := cleanerReads false .tags 0 1
    let u := cleanerReads true .footer 7 1
    s.seq.state = .transferring ∧ (s.seq.current.map fun f => decide (f.op.kind = .readRun ∧ f.op.origin = .cleaner ∧ f.next = 0
        ∧ f.delivered = [] ∧ f.op.count = 1)) = some true
      ∧ (s.band 0).map (fun r => r.state) = some .cleaning ∧ s.recovery.part ≠ .faulted
      ∧ (s.seq.current.map fun f => (f.op.scan, f.op.slots)) = some (false, [1].map some) ∧ (s.slot 1).isSome = true
      ∧ ((cleanerReads true .tags 0 1).seq.current.map fun f => f.op.scan) = some true
      ∧ (cleanerReads true .tags 0 1).cleaner.scan = some { kind := .tags, cursor := 0, ranges := [] }
      ∧ u.cleaner.scan = some { kind := .footer, cursor := 0, ranges := [] } ∧ u.cleaner.victim = some (0, .cleaning)
      ∧ (u.seq.current.map fun f => decide (opFirst f.op = (u.shape 0).capacity + 0)) = some true := by decide +kernel

/-- The data read of slot 1, LBN 5 at offset 0 of the victim, in flight with its block retried 4 times; the band and the victim as
given, and the map with LBN 5 there where it is live. -/
def unreadable (st : BandState) (k : VictimKind) (live : Bool) : State :=
  let s := (cleanerReads false .tags 0 1).putBand 0 { emptyBand with state := st, refs := 1, live := if live then 1 else 0 }
  (withMap (fun m => { m with table := if live then [⟨5, 1, 0, 0⟩] else [] }) s).modCleaner (fun c =>
      { c with victim := some (0, k), inRelocation := 1 }) |>.modSeq fun q =>
    { q with current := q.current.map fun f => { f with retry := some (0, 4) } }

theorem test_unreadable_block_retires_the_victim :
    let t := after (.readError []) (unreadable .cleaning .cleaning true)
    (t.band 0).map (fun r => r.state) = some .retired ∧ t.cleaner.retired = [(0, .attempted)] ∧ t.lookup 5 = some (0, 0, 0) := by
  decide +kernel

/-- The queued read of the Cleaner that `cleanerReads` has in flight, with the channel NOT READY. -/
def cleanerQueued (scan : Bool) (kind : ScanKind) (first : Nat) : State :=
  let s := cleanerReads scan kind first 1
  queued ((s.seq.current.map fun f => f.op).getD sysOp) (s.modSeq fun q => { q with state := .idle, current := none })

theorem test_not_ready_block_is_rechecked :
    let s := withStaging (fun g => { g with index := [⟨5, 2⟩] }) (cleanerQueued false .tags 0)
    let t := after (.readinessTimerExpiry 5) (withMap (fun m => { m with table := [⟨5, 1, 0, 0⟩] }) s)
    t.cleaner.recheck = [(0, 5)] ∧ t.staging.slots = [] ∧ t.media.queue = [] := by decide +kernel

theorem witness_CleanerReadsAreTaken_unrecovered :
    let s := unreadable .cleaning .cleaning true
    let u := cleanerReads true .tags 0 2
    s.seq.state = .transferring ∧ (s.seq.current.map fun f => decide (f.op.place = .band 0 0 ∧ f.op.count = 1 ∧ f.next = 0
        ∧ f.delivered = [] ∧ f.retry = some (0, 4) ∧ f.op.slots = [some 1] ∧ f.op.scan = false)) = some true
      ∧ ((s.slot 1).map fun x => (x.state, x.pins, x.lbn)) = some (.cleaning, 0, 5) ∧ s.cleaner.victim = some (0, .cleaning)
      ∧ ((s.band 0).map fun r => (r.state, decide (0 < r.live))) = some (.cleaning, true) ∧ s.liveCheck 5 0 0 = true
      ∧ s.recovery.part = .ready ∧ s.recovery.journal.length < Config.journalPlaces
      ∧ (unreadable .cleaning .cleaning false).liveCheck 5 0 0 = false
      ∧ (((unreadable .retired .retired true).band 0).map fun r => r.state) = some .retired
      ∧ (unreadable .retired .retired true).cleaner.victim = some (0, .retired)
      ∧ (((u.modSeq fun q => { q with current := q.current.map fun f =>
          { f with delivered := [none], next := 1, retry := none } }).seq.current).map fun f =>
            decide (f.delivered.length = f.next ∧ f.next + [media0].length = f.op.count)) = some true
      ∧ (((cleanerReads true .footer 7 1).modSeq fun q => { q with current := q.current.map fun f =>
          { f with retry := some (0, 4) } }).seq.current.map fun f => decide (f.next + 0 + 1 = f.op.count
            ∧ 4 ≤ (f.deliver []).retries)) = some true := by decide +kernel

theorem witness_CleanerReadsAreTaken_not_ready :
    let s := cleanerQueued false .tags 0
    let u := cleanerQueued true .footer 7
    let op (s : State) : MediaOp := s.media.queue.head?.getD sysOp
    s.media.queue = [] ++ op s :: [] ∧ s.seq.ready = false ∧ s.recovery.part = .ready ∧ (op s).kind = .readRun
      ∧ (op s).origin = .cleaner ∧ ((s.band (opBand (op s))).map fun r => r.state) = some .cleaning
      ∧ (op s).scan = false ∧ (op s).slots = [1].map some ∧ ((s.slot 1).map fun x => x.pins) = some 0
      ∧ (op (cleanerQueued true .tags 0)).scan = true ∧ opFirst (op (cleanerQueued true .tags 0)) = 0
      ∧ (op u).scan = true ∧ u.cleaner.scan = some { kind := .footer, cursor := 0, ranges := [] }
      ∧ (u.shape (opBand (op u))).capacity ≤ opFirst (op u) ∧ 256 * (opFirst (op u) - (u.shape (opBand (op u))).capacity) = 0 := by
  decide +kernel

/-- DRAINING with LBNs 5, 6 and 7, of offsets 0 to 2 of the victim, to check again: 5 mapped and staged, 6 mapped alone, 7 dead;
or with 5 alone. -/
def rechecking (entries : List (Nat × Nat)) : State :=
  (withStaging (fun g => { g with index := [⟨5, 1⟩] })
    (withMap (fun m => { m with table := [⟨5, 2, 0, 0⟩] }) live0)).modCleaner fun c =>
      { c with state := .draining, victim := some (0, .cleaning), recheck := entries, recheckTimer := true, candidates := [(4, 9)] }

theorem test_recheck_three :
    let c := (after .recheckTimerExpiry (rechecking [(0, 5), (1, 6), (2, 7)])).cleaner
    c.recheck = [(0, 5)] ∧ c.state = .relocating ∧ c.recheckTimer = true ∧ c.inRelocation = 1 := by decide +kernel

theorem witness_TheCleanerFormsItsReadsAndRechecks_recheck :
    let s := rechecking [(0, 5), (1, 6), (2, 7)]
    s.cleaner.victim = some (0, .cleaning) ∧ s.cleaner.recheckTimer = true ∧ s.recovery.part = .ready
      ∧ (s.liveCheck 5 0 0, (s.indexed 5).isSome) = (true, true) ∧ (s.liveCheck 6 0 1, (s.indexed 6).isNone) = (true, true)
      ∧ s.liveCheck 7 0 2 = false := by decide +kernel

theorem witness_TheLoadEndsAndTheCheckWordIsTested_check_word :
    let s : State := { ready0 with geo := { ready0.geo with checkWord := ready0.geo.checkWord + 1 } }
    ready0.geo.inForce = some tiny ∧ ready0.recovery.part = .ready ∧ checkWordOf tiny = ready0.geo.checkWord
      ∧ s.geo.inForce = some tiny ∧ s.recovery.part = .ready ∧ checkWordOf tiny ≠ s.geo.checkWord := by decide +kernel

/-- The read of a geometry copy in flight in LOADING, the other copy as given. -/
def loading (second : Bool) (other : Option CopyResult) (list : List Command) : State :=
  let op : MediaOp := { plainOp .systemRead (.system (if second then 1 else 0)) 1 .recovery with task := .loadGeometry second }
  let s := (State.reset.setPort .a { walking with list := list, nextId := 1 }).modRecovery fun r =>
    if second then { r with loadIssued := true, copy0 := other } else { r with loadIssued := true, copy1 := other }
  flying op .transferring (s.modSeq fun q => { q with ready := true, shockMask := false })

/-- A geometry copy as read. -/
def copyOf (g : Geometry) (k : Word32) : MediaBlock := { content := .system (.geometry g k), tag := none }

theorem test_load_copy_1_alone :
    let t := after (.readTransferGood [copyOf tiny (checkWordOf tiny)]) (loading true (some .neither) [])
    t.recovery.part = .rebuilding ∧ (t.media.queue.map fun op => (op.kind, op.place))
      = [(.systemRead, .system (imageBase tiny .first)), (.systemWrite, .system 0)] := by decide +kernel
theorem test_load_blank_releases :
    let t := after (.readTransferGood [media0]) (loading true (some .blank) [{ cmd 0 4 rec0 .none with held := true }])
    t.recovery.part = .unconfigured ∧ ((t.port .a).list.map fun c => c.status.map fun d => d.status) = [some .notConfigured] := by
  decide +kernel

theorem witness_TheLoadEndsAndTheCheckWordIsTested :
    let s := loading true (some .neither) []
    let u := loading true (some .blank) [{ cmd 0 4 rec0 .none with held := true }]
    s.seq.state = .transferring ∧ (s.seq.current.map fun f => decide (f.op.kind = .systemRead ∧ f.op.task = .loadGeometry true
        ∧ f.op.count = 1 ∧ f.next = 0 ∧ f.delivered = [])) = some true
      ∧ s.recovery.part = .loading ∧ s.media.queue.length + s.media.entryWait.length + 1 < Config.queueLimit
      ∧ copyResult (some (copyOf tiny (checkWordOf tiny))) = .valid tiny ∧ copyResult (some media0) = .blank
      ∧ copyResult (some (copyOf tiny (checkWordOf tiny + 1))) = .neither
      ∧ s.recovery.copy0 = some .neither ∧ (loading false none []).recovery.copy1 = none
      ∧ (loading true (some (.valid tiny)) []).recovery.copy0 = some (.valid tiny) ∧ u.recovery.copy0 = some .blank
      ∧ ((u.port .a).list.map fun c => (c.held, c.status, decide (1 ≤ c.opcode ∧ c.opcode ≤ 8))) = [(true, none, true)]
      ∧ (u.port .b).list = [] ∧ (s.port .a).list = [] := by decide +kernel

theorem witness_TheLoadEndsAndTheCheckWordIsTested_blank : ∀ g k, media0.content ≠ .system (.geometry g k) := nofun

/-- REBUILDING with a read in flight. -/
def rebuilding (op : MediaOp) (r : Rebuild) : State :=
  (flying op .transferring live0).modRecovery fun x => { x with part := .rebuilding, rebuild := some r }

/-- A read of the rebuild of system blocks, and of a tag. -/
def rebuildOp : MediaOp := { plainOp .systemRead (.system 3) 1 .recovery with task := .rebuildRead }
def tagOp (b o : Nat) : MediaOp := plainOp .readRun (.band b o) 1 .recovery

/-- A header of an empty image with a sequence and a sum, and a block that holds it. -/
def header0 (n : Nat) (sum : Word32) : ImageHeader :=
  { sequence := n, check := checkWordOf tiny, watermark := 7, extents := 0, closeCounter := 2, firstUnreleased := 0, sum := sum }
def headerBlock (h : ImageHeader) : MediaBlock := { content := .system (.header h), tag := none }

/-- The last body block of an image of empty bands. -/
def lastBody : List BandImage := List.replicate 6 (bandImage emptyBand)

/-- The reading of that block. -/
def imaging (sum : Word32) : Rebuild :=
  { Rebuild.start with step := .image .first, header := some (header0 3 sum), cursor := imageBlocks tiny - 1 }

theorem test_rebuild_newer_header :
    let t := after (.readTransferGood [headerBlock (header0 4 0)])
      (rebuilding rebuildOp { Rebuild.start with step := .header .second, headers := [(.first, header0 3 0)] })
    (t.recovery.rebuild.map fun x => x.step) = some (.image .second)
      ∧ (t.media.queue.map fun op => op.place) = [.system (imageBase tiny .second + 1)] := by decide +kernel

theorem witness_TheRebuildTakesAnImage :
    let s := rebuilding rebuildOp { Rebuild.start with step := .header .second }
    s.seq.state = .transferring ∧ (s.seq.current.map fun f => decide (f.op.kind = .systemRead ∧ f.op.task = .rebuildRead ∧ f.next = 0
        ∧ f.delivered = [] ∧ f.op.count = [media0].length)) = some true
      ∧ s.recovery.part = .rebuilding ∧ s.recovery.rebuild.isSome = true ∧ s.geo.inForce = some tiny
      ∧ s.media.queue.length + s.media.entryWait.length < Config.queueLimit
      ∧ Rebuild.start.step = .header .first ∧ Rebuild.start.headers = []
      ∧ (header0 3 0).check = s.geo.checkWord
      ∧ (imaging 0).step = .image .first ∧ (imaging 0).header.isSome = true
      ∧ s.recovery.journal.length < Config.journalPlaces ∧ s.recovery.nextSequence = 0 := by decide +kernel

/-- One body block of band records, taken. -/
theorem addBodies_bands (g : Geometry) (r : Rebuild) (bs : List BandImage) (h : mapBlocks g < r.cursor) :
    addBodies g r [some { content := .system (.bands bs), tag := none }]
      = some { r with cursor := r.cursor + 1, bands := r.bands ++ bs, sum := r.sum + Config.bandBlockSum bs } := by
  simp [addBodies, addBody, h]

theorem witness_TheRebuildTakesAnImage_sum :
    let r := imaging (0 + Config.bandBlockSum lastBody)
    ∃ x, addBodies tiny r ([{ content := .system (.bands lastBody), tag := none }].map some) = some x
      ∧ imageBlocks tiny ≤ x.cursor ∧ x.sum = (header0 3 (0 + Config.bandBlockSum lastBody)).sum := by
  exact ⟨_, addBodies_bands tiny (imaging _) lastBody
    (by show mapBlocks tiny < imageBlocks tiny - 1; decide +kernel),
    by show imageBlocks tiny ≤ imageBlocks tiny - 1 + 1; decide +kernel, rfl⟩

/-- Both headers read, the first valid; and the last block of that image's body to come, or another before it. -/
def choosing : Rebuild := { Rebuild.start with step := .header .second, headers := [(.first, header0 3 0)] }
def bodies (n : Nat) : Rebuild :=
  { Rebuild.start with step := .image .first, headers := [(.second, header0 2 0)], header := some (header0 3 0), cursor := n }

/-- A body block of extent records, taken. -/
theorem addBodies_extents (g : Geometry) (r : Rebuild) (es : List Extent) (h : r.cursor ≤ mapBlocks g) :
    addBodies g r [some { content := .system (.extents es), tag := none }]
      = some { r with cursor := r.cursor + 1, extents := r.extents ++ es, sum := r.sum + Config.extentBlockSum es } := by
  simp [addBodies, addBody, h]

theorem witness_TheRebuildTakesAnImage_headers :
    choosing.step = .header .second ∧ choosing.headers ≠ [] ∧ (bodies 1).headers ≠ [] ∧ (imaging 0).headers = [] := by
  decide +kernel

theorem witness_TheRebuildTakesAnImage_bodies :
    addBodies tiny (bodies 1) ([media0].map some) = none
      ∧ (∃ x, addBodies tiny (bodies 1) ([{ content := .system (.extents []), tag := none }].map some) = some x
          ∧ x.cursor < imageBlocks tiny)
      ∧ ∃ x, addBodies tiny (bodies (imageBlocks tiny - 1)) ([{ content := .system (.bands []), tag := none }].map some) = some x
          ∧ imageBlocks tiny ≤ x.cursor ∧ x.bands.length ≤ 0 :=
  ⟨rfl, ⟨_, addBodies_extents tiny (bodies 1) [] (by decide +kernel), by show 1 + 1 < imageBlocks tiny; decide +kernel⟩,
    ⟨_, addBodies_bands tiny (bodies _) [] (by show mapBlocks tiny < imageBlocks tiny - 1; decide +kernel),
      by show imageBlocks tiny ≤ imageBlocks tiny - 1 + 1; decide +kernel, by show 0 ≤ 0; decide⟩⟩

theorem witness_TheRebuildTakesAnImage_other_sum :
    let sum := Config.bandBlockSum lastBody + 1
    ∃ x, addBodies tiny (imaging sum) ([{ content := .system (.bands lastBody), tag := none }].map some) = some x
      ∧ imageBlocks tiny ≤ x.cursor ∧ x.sum ≠ (header0 3 sum).sum :=
  ⟨_, addBodies_bands tiny (imaging _) lastBody (by show mapBlocks tiny < imageBlocks tiny - 1; decide +kernel),
    by show imageBlocks tiny ≤ imageBlocks tiny - 1 + 1; decide +kernel,
    by show 0 + Config.bandBlockSum lastBody ≠ Config.bandBlockSum lastBody + 1; bv_omega⟩

/-- Journal records of a block: 0, 1, and one of an older turn of the journal. -/
def journalBlock0 : List JournalRecord :=
  [{ sequence := 0, kind := .retire 3 }, { sequence := 1, kind := .trim 5 2 9 }, { sequence := 5, kind := .trim 5 1 40 }]

/-- The read of that block in flight in REBUILDING. -/
def journalReads : State :=
  rebuilding { rebuildOp with place := .system (journalBase tiny) } { Rebuild.start with step := .journal, above := 7 }

theorem test_journal_block_counts_every_trim :
    let t := after (.readTransferGood [{ content := .system (.journal journalBlock0), tag := none }]) journalReads
    (t.recovery.journal.map fun e => e.record.sequence) = [0, 1] ∧ t.recovery.nextSequence = 2
      ∧ (t.recovery.rebuild.map fun x => x.above) = some 41 := by decide +kernel

theorem witness_TheRebuildTakesAnImage_journal :
    (journalReads.recovery.rebuild.map fun x => x.step) = some .journal
      ∧ journalReads.recovery.journal.length < Config.journalPlaces
      ∧ (journalBlock0.find? fun y => decide (y.sequence = journalReads.recovery.nextSequence)).isSome = true
      ∧ (∀ x ∈ journalBlock0.drop 1, x.sequence ≠ journalReads.recovery.nextSequence) := by decide +kernel

theorem witness_TheRebuildReadsTagsAndEnds :
    let s := (rebuilding (tagOp 0 0) { Rebuild.start with step := .startTag 0 0 }).putBand 0
      { emptyBand with state := .opened, wp := 4, done := 4 }
    let u := rebuilding (tagOp 2 3) { Rebuild.start with step := .sweep, sweep := [(5, 2, 3)] }
    s.seq.state = .transferring ∧ (s.seq.current.map fun f => decide (f.op.kind = .readRun ∧ f.op.origin = .recovery ∧ f.op.count = 1
        ∧ f.next = 0 ∧ f.delivered = [])) = some true
      ∧ s.recovery.part = .rebuilding ∧ (s.recovery.rebuild.map fun r => r.step) = some (.startTag 0 0)
      ∧ ((s.band 0).map fun r => r.state) = some .opened ∧ ((s.band 1).map fun r => r.state) = some .empty
      ∧ (s.shape 1).track < (s.shape 1).capacity
      ∧ s.media.queue.length + s.media.entryWait.length < Config.queueLimit
      ∧ (u.recovery.rebuild.map fun r => (r.step, r.sweep)) = some (.sweep, [(5, 2, 3)])
      ∧ u.recovery.checkpoint.state = .idle := by decide +kernel

/-- A SYSTEM WRITE of a CONFIG CLOSE in flight at a step. -/
def closeAt (step : CloseStep) (tries : Nat) : State :=
  let w : CloseWork := { port := .a, cmd := 0, record := tiny, step := step, reissues := tries }
  (flying (systemWriteOp .closeWrite 1 []) .transferring
    (closing.modSeq fun q => { q with ready := true, shockMask := false })).modRecovery fun r => { r with close := some w }

theorem test_close_ends :
    let t := after .writeTransferGood (closeAt .block0 0)
    t.recovery.part = .ready ∧ t.bands.emptyCount = 6
      ∧ ((t.port .a).list.map fun c => c.status.map fun d => (d.status, d.result0)) = [some (.done, 6)] := by decide +kernel
theorem test_close_third_fault :
    ((after (.writeFault 0) (closeAt .block1 2)).port .a).list.map (fun c => c.status.map fun d => (d.status, d.result0))
      = [some (.mediaError, 1)] := by decide +kernel

theorem witness_ConfigCloseWritesAndEnds :
    let s := closeAt (.image 1 1) 0
    s.seq.state = .transferring ∧ (s.seq.current.map fun f => (f.op.kind, f.op.task)) = some (.systemWrite, .closeWrite)
      ∧ s.recovery.part = .unconfigured ∧ (s.recovery.close.map fun w => (w.step, w.reissues)) = some (.image 1 1, 0)
      ∧ s.media.queue.length + s.media.entryWait.length < Config.queueLimit
      ∧ 1 < imageBlocks tiny ∧ 1 + 1 < imageBlocks tiny ∧ imageBlocks tiny ≤ 1 + (imageBlocks tiny - 1)
      ∧ ((closeAt .block1 0).recovery.close.map fun w => w.step) = some .block1
      ∧ ((closeAt .block0 2).recovery.close.map fun w => (w.step, decide (2 ≤ w.reissues))) = some (.block0, true)
      ∧ (s.command .a 0).isSome = true ∧ (∀ d ∈ (s.port .a).list, d.held = false) ∧ (s.port .b).list = [] := by decide +kernel

/-- A checkpoint that is QUIESCING. -/
def quiescing (s : State) : State := s.modRecovery fun r => { r with checkpoint := { r.checkpoint with state := .quiescing } }

theorem witness_CheckpointFixesWritesAndEnds_watermark :
    (quiescing live0).geo.inForce = some tiny ∧ (quiescing live0).recovery.checkpoint.state = .quiescing
      ∧ (quiescing live0).noRunWrites = true ∧ 1 < imageBlocks tiny ∧ (quiescing live0).queueRoom = true
      ∧ (quiescing live0).recovery.part ≠ .faulted
      ∧ (quiescing (transferring .writeRun .data)).noRunWrites = false := by decide +kernel

/-- The header write of a checkpoint in flight, for a CHECKPOINT of Port A. -/
def headerWrite : State :=
  (flying (systemWriteOp .checkpointWrite (imageBase tiny .first) []) .transferring
    (withMap (fun m => { m with writePhase := true }) (oneCmd (cmd 0 7 rec0 .checkpoint)))).modRecovery fun r =>
      { r with joined := [(.a, 0)]
               checkpoint := { r.checkpoint with state := .writing, cursor := imageBlocks tiny, unreleased := 1 }
               journal := [{ record := { sequence := 0, kind := .retire 3 }, written := false }] }

theorem witness_CheckpointFixesWritesAndEnds :
    let s := headerWrite
    s.seq.state = .transferring
      ∧ (s.seq.current.map fun f => (f.op.kind, f.op.task)) = some (.systemWrite, .checkpointWrite)
      ∧ s.recovery.part = .ready ∧ s.geo.inForce = some tiny ∧ imageBlocks tiny ≤ s.recovery.checkpoint.cursor
      ∧ s.recovery.due = false ∧ s.recovery.heldRetires = []
      ∧ (∀ e ∈ s.recovery.journal, e.written = true ∨ e.record.sequence < s.recovery.checkpoint.unreleased)
      ∧ (.a, 0) ∈ s.recovery.joined ∧ (s.command .a 0).isSome = true := by decide +kernel

/-- A checkpoint write in flight at an image block, or behind the last, with the reissues so far. -/
def imageWrite (cursor count reissues : Nat) : State :=
  headerWrite.modRecovery fun r =>
    { r with checkpoint := { r.checkpoint with cursor := cursor, count := count, reissues := reissues } }

theorem test_body_then_header :
    ((after .writeTransferGood (imageWrite 2 1 0)).media.queue.map fun op => (op.place, op.task))
      = [(.system (imageBase tiny .first), .checkpointWrite)] := by decide +kernel

theorem witness_CheckpointFixesWritesAndEnds_writes :
    let s := imageWrite 1 1 0
    s.recovery.checkpoint.cursor < imageBlocks tiny ∧ s.media.queue.length + s.media.entryWait.length < Config.queueLimit
      ∧ 1 + 1 < imageBlocks tiny ∧ imageBlocks tiny ≤ 2 + 1 ∧ (imageWrite 1 1 1).recovery.checkpoint.reissues < 2
      ∧ 2 ≤ (imageWrite 1 1 2).recovery.checkpoint.reissues ∧ (imageWrite 1 1 2).recovery.due = false
      ∧ (imageWrite 1 1 2).recovery.journal.length < Config.journalPlaces := by decide +kernel

/-- The write of journal block 0 in flight with records 0 and 1, for a FLUSH of Port A; the list of blocks and the reissues as
given. -/
def journalling (blocks : List Nat) (tries : Nat) (further : Bool) : State :=
  (flying sysOp .transferring (oneCmd (cmd 0 4 rec0 (.flush 0 none)))).modRecovery fun r => { r with
    journal := [{ record := { sequence := 0, kind := .retire 3 }, written := false },
                { record := { sequence := 1, kind := .retire 4 }, written := false }]
    nextSequence := 2
    journalWrite := { active := true, taken := [0], blocks := blocks, reissues := tries, requesters := [.command .a 0]
                      further := further, furtherRequesters := [] } }

theorem test_journal_write_answers :
    let t := after .writeTransferGood (journalling [0] 0 true)
    (t.recovery.journal.map fun e => e.written) = [true, false] ∧ t.recovery.journalWrite.taken = [1]
      ∧ ((t.port .a).list.map fun c => c.status.map fun d => d.status) = [some .done] := by decide +kernel

theorem witness_RecordsAreAppendedAndJournalWritesEnd :
    let s := journalling [0] 0 true
    s.seq.state = .transferring ∧ (s.seq.current.map fun f => (f.op.kind, f.op.task)) = some (.systemWrite, .journalWrite)
      ∧ s.recovery.part = .ready ∧ s.geo.inForce = some tiny ∧ s.recovery.checkpoint.state ≠ .finishing
      ∧ s.media.queue.length + s.media.entryWait.length < Config.queueLimit
      ∧ s.recovery.journalWrite.blocks = [0] ∧ s.recovery.journalWrite.further = true
      ∧ (journalling [0] 0 false).recovery.journalWrite.further = false
      ∧ (journalling [0, 1] 0 false).recovery.journalWrite.blocks = 0 :: 1 :: []
      ∧ (journalling [0] 2 false).recovery.journalWrite.reissues = 2
      ∧ s.recovery.journal.any (fun e => !e.written && decide (e.record.sequence ∉ s.recovery.journalWrite.taken)) = true
      ∧ ((s.command .a 0).map fun c => c.work) = some (.flush 0 none) := by decide +kernel

/-- A record as read: OWN set, a NOP, a number of pieces, a next address. -/
def words (pieces : Nat) (flags : Nat) (next : Word64) : RecordWords :=
  { w0 := next, w1 := BitVec.ofNat 64 (flags + pieces * 2 ^ 24), w2 := 0, w3 := 0, w4 := 0, w5 := 0, w6 := 0, w7 := 0 }

theorem witness_RecordReadsAndPolls :
    takingAt { walking with walk := .record } = some 0x1000 ∧ ownBit (recordFlags (words 0 0 0)) = false
      ∧ ownBit (recordFlags (words 0 3 0)) = true ∧ contBit (recordFlags (words 0 3 0)) = true
      ∧ contBit (recordFlags (words 2 1 0)) = false ∧ recordPieces (words 2 1 0) = 2
      ∧ (commandRow (recordOpcode (words 2 1 0)) .a rec0).isSome = true
      ∧ 2 < recordPieces (words 3 1 0x1040) ∧ (words 3 1 0x1040).w0 ≠ 0 ∧ (words 3 1 0x1040).w0.toNat % 64 = 0
      ∧ (words 3 1 0).w0 = 0 ∧ (words 3 1 1).w0.toNat % 64 ≠ 0
      ∧ takingAt { walking with walk := .continuation (words 8 1 0x1040) [0, 0] 0x1040 } = some 0x1000
      ∧ recordPieces (words 8 1 0x1040) ≤ [0, 0].length + 6 ∧ [0, 0].length + 6 < recordPieces (words 9 1 0x1040) := by
  decide +kernel

theorem witness_RecordReadsAndPolls_polls :
    ({ chainEnd with walk := .pollNext } : PortEngine).walk = .pollNext ∧ chainEnd.position = .afterRecord 0x1040
      ∧ chainEnd.stopRequested = false ∧ chainEnd.teardown = false ∧ chainEnd.list.length < 32 ∧ chainEnd.walk = .idle
      ∧ chainEnd.process = .suspendedEnd ∧ ({ chainEnd with pollTimer := some 2 } : PortEngine).pollTimer.isSome = true
      ∧ ({ walking with process := .suspendedNotOwned } : PortEngine).process = .suspendedNotOwned
      ∧ ({ walking with walk := .pollRecord } : PortEngine).walk = .pollRecord ∧ walking.position = .atRecord 0x1000
      ∧ PortEngine.reset.process = .stopped ∧ chainEnd.linkUp = true ∧ (linkGone.port .a).linkUp = false
      ∧ ({ chainEnd with position := .atRecord 0x1080 } : PortEngine).process = .suspendedEnd
      ∧ (0x1080 : Address) ≠ 0 ∧ (0x1080 : Address).toNat % 64 = 0
      ∧ (0x1081 : Address).toNat % 64 ≠ 0 := by decide +kernel

theorem witness_WriteBacksMoveDoneMark :
    let e := { chainEnd with list := [{ doneCmd 0 with record := { rec0 with last := 0x1040 } }] }
    (e.list.map fun c => c.status.isSome) = [true] ∧ e.writeBack = none ∧ e.linkUp = true
      ∧ ({ e with writeBack := some .nextRead } : PortEngine).writeBack = some .nextRead
      ∧ (e.list.map fun c => decide (e.position = .afterRecord c.record.last)) = [true]
      ∧ e.process = .suspendedEnd ∧ e.stopRequested = false ∧ walking.process ≠ .suspendedEnd
      ∧ ({ e with writeBack := some (.statusWrite true 0 0 0) } : PortEngine).writeBack = some (.statusWrite true 0 0 0) := by
  decide +kernel

theorem witness_WriteBacksMoveDoneMark_event :
    let e := { chainEnd with writeBack := some (.flagsWrite true 0) }
    e.list = doneCmd 0 :: [] ∧ e.writeBack = some (.flagsWrite true 0)
      ∧ ({ e with stopRequested := true } : PortEngine).stopRequested = true ∧ e.stopRequested = false ∧ e.teardown = false := by
  decide +kernel

/-- The READ RUN of Port A in flight from band 0, with a record of that band, blocks read before and retries of the next. -/
def portReads (r : BandRecord) (delivered : List (Option MediaBlock)) (retries : Nat) : State :=
  let s := withStaging (fun g => { g with slots := [newSlot 1 .reading 5 (.port .a), newSlot 2 .reading 6 (.port .a)] })
    (oneCmd (cmd 0 1 (recN 2 5) (.read 2 false 0 0 0 [])))
  ((flying readOp .transferring s).putBand 0 r).modSeq fun q => { q with current := q.current.map fun f =>
    { f with delivered := delivered, next := delivered.length, retry := some (delivered.length, retries) } }

theorem test_last_reference_empties_a_full_band :
    let t := after (.readError []) (portReads { fullBand 0 4 with refs := 1 } [some media0] 4)
    t.band 0 = some emptyBand ∧ t.bands.emptyCount = 6
      ∧ ((t.port .a).list.map fun c => c.work) = [.read 2 false 0 0 0 [(1, .unrecovered)]]
      ∧ ((t.port .a).pushes.map fun x => (x.index, x.slot)) = [(0, some 1)] ∧ (t.slot 2).isNone = true := by decide +kernel

theorem witness_PortReadsArePushedAndCounted_states :
    let s := portReads { fullBand 0 4 with refs := 1 } [some media0] 4
    s.seq.state = .transferring ∧ (s.seq.current.map fun f => decide (f.op = readOp ∧ f.delivered.length = f.next
        ∧ f.next + ([] : List MediaBlock).length + 1 = f.op.count ∧ 4 ≤ (f.deliver []).retries ∧ f.discard = false)) = some true
      ∧ [1, 2].Nodup ∧ (s.command .a readOp.command).isSome = true
      ∧ ((s.band 0).map fun r => (r.state, r.live, decide (r.refs ≤ 1))) = some (.full, 0, true)
      ∧ (∀ n ∈ [1, 2], (s.slot n).map (fun y => y.pins) = some 0)
      ∧ ((portReads { emptyBand with state := .cleaning, refs := 1 } [] 0).band 0).map (fun r => r.state) = some .cleaning
      ∧ ((portReads { emptyBand with state := .retired, refs := 1 } [] 0).band 0).map (fun r => r.state) = some .retired
      ∧ ((portReads emptyBand [] 0).seq.current.map fun f => decide (f.next + [media0, media0].length = f.op.count)) = some true := by
  decide +kernel

/-- A push of a block of slot 1 for Port A's command 0. -/
def push1 : Push := { cmd := 0, index := 0, address := 0x2000, block := [], slot := some 1 }

/-- That push outstanding for a command, from a slot as given. -/
def pushing (w : Work) (x : Slot) : State :=
  withStaging (fun g => { g with slots := [x] })
    (portA { walking with list := [cmd 0 1 (recN 1 5) w], nextId := 1, pushes := [push1] })

theorem witness_PortReadsArePushedAndCounted_answer :
    let s := pushing (.read 1 false 1 0 0 []) { newSlot 1 .reading 5 (.port .a) with pins := 0 }
    let u := pushing (.report 1 [] 0) { hostSlot 1 5 .gathered with pins := 1 }
    (s.port .a).pushes = [push1] ∧ (s.command .a push1.cmd).isSome = true
      ∧ (s.port .a).list = [cmd 0 1 (recN 1 5) (.read 1 false 1 0 0 [])]
      ∧ ((s.slot 1).map fun y => (y.state, y.pins)) = some (.reading, 0)
      ∧ (u.port .a).list = [cmd 0 1 (recN 1 5) (.report 1 [] 0)]
      ∧ ((u.slot 1).map fun y => (decide (y.state ≠ .reading), y.releaseDue)) = some (true, false) := by decide +kernel

theorem witness_AckMarkEndsThePace :
    let e := { chainEnd with writeBack := some (.flagsWrite true 0) }
    ((portA e).port .a).linkUp = true ∧ writeBackDue ((portA e).port .a) = true ∧ ((portA e).port .a).doneMark = 0
      ∧ (∀ p, ((portA e).port p).doneMark.extractLsb' 0 6 = ((portA e).port p).writeBacks)
      ∧ ({ NoticeUnit.reset with released := true } : NoticeUnit).released = true :=
  ⟨by decide +kernel, by decide +kernel, by decide +kernel, fun p => by cases p <;> decide +kernel, rfl⟩

theorem witness_PacingAndSettings :
    let n : NoticeUnit := { NoticeUnit.reset with counting := true, tally := 1, pacingCount := 2 }
    NoticeUnit.reset.released = false ∧ NoticeUnit.reset.counting = false ∧ NoticeUnit.reset.delay = false
      ∧ n.released = false ∧ n.counting = true ∧ n.tally + 1 = n.pacingCount
      ∧ ({ n with pacingCount := 3 } : NoticeUnit).tally + 1 ≠ 3
      ∧ ({ NoticeUnit.reset with delay := true, timer := true } : NoticeUnit).counting = false := by decide +kernel

theorem witness_PortWordWrites :
    (0x1000 : Word64).toNat % 64 = 0 ∧ (0x1001 : Word64).toNat % 64 ≠ 0 ∧ PortEngine.reset.process = .stopped
      ∧ PortEngine.reset.linkUp = true ∧ (linkGone.port .a).linkUp = false
      ∧ PortEngine.reset.position = .none ∧ chainEnd.process = .suspendedEnd ∧ walking.process = .running
      ∧ chainEnd.list.length < 32 ∧ chainEnd.stopRequested = false ∧ chainEnd.teardown = false ∧ chainEnd.list ≠ []
      ∧ ready0.staging.owners.get .a = .a ∧ walking.list = []
      ∧ ({ walking with process := .stopped } : PortEngine).position = .atRecord 0x1000
      ∧ ({ chainEnd with process := .stopped } : PortEngine).position = .afterRecord 0x1040 := by decide +kernel

/-- Port B has taken Port A over, and writes to stream A0 by the name 4. -/
def takenOver : State :=
  let c := cmd 0 2 { recN 2 5 with stream := 4 } (.write 1 0 [])
  (withStaging (fun g => { g with owners := g.owners.set .a .b })
    (portA { PortEngine.reset with position := .atRecord 0x1000 })).setPort .b { walking with list := [c], nextId := 1 }

theorem witness_PortWordWrites_return :
    (takenOver.port .a).process = .stopped ∧ (takenOver.port .a).position ≠ .none
      ∧ takenOver.staging.owners.get .a = otherPort .a
      ∧ ((takenOver.port .b).list.map fun c =>
          (c.status.isNone, c.work, c.opcode, streamGroup (writeStream (otherPort .a) c.record)))
        = [(true, .write 1 0 [], 2, some .a)] := by decide +kernel

theorem witness_LinkFaultTeardownAndResetPort :
    walking.process ≠ .stopped ∧ walking.stopRequested = false ∧ PortEngine.reset.process = .stopped
      ∧ walking.teardown = false ∧ walking.linkUp = true ∧ walking.list = []
      ∧ ({ walking with list := [cmd 0 0 rec0 .none] } : PortEngine).list ≠ []
      ∧ (portA walking).linkBusy .a = false ∧ (portA { walking with walk := .record }).linkBusy .a = true
      ∧ (portA { walking with walk := .record, stopRequested := true }).linkBusy .a = true := by decide +kernel

theorem witness_TakingACommand :
    commandRow 0 .a rec0 = some (.nop .a rec0) ∧ takingAt PortEngine.reset = none ∧ takingAt walking = some 0x1000
      ∧ (0x1040 : Address) ≠ 0 ∧ (0x1040 : Address).toNat % 64 = 0 ∧ (0x1041 : Address).toNat % 64 ≠ 0
      ∧ takingAt ((portA { walking with walk := .record }).port .a) = some 0x1000
      ∧ (words 2 0xB01 0).w1.getLsbD 0 = true ∧ (words 2 0xB01 0).w1.getLsbD 1 = false
      ∧ ((words 2 0xB01 0).w1.extractLsb' 24 8).toNat ≤ 2 ∧ ((words 2 0xB01 0).w1.extractLsb' 8 8).toNat = 11 := by
  decide +kernel

theorem test_opcode_above_10 :
    ((after (.recordReadAnswer .a (words 0 0xB01 0)) (portA { walking with walk := .record })).port .a).list.map
      (fun c => (c.opcode, c.status.map fun d => d.status)) = [(11, some .badCommand)] := by decide +kernel

/-- A READ of Port A of `n` blocks from LBN 5, with its next lookup at block `i`; the map has LBNs 5 to 7 at band 0 from offset
0, slot 1 holds LBN 8, and an open run stands where one is given. -/
def looking (n i : Nat) (missed : Bool) (run : List FormingRead) : State :=
  let c := cmd 0 1 (recN n 5) (.read i missed 0 0 0 [])
  withMedia (fun m => { m with forming := run, stamp := 9 }) (withMap (fun m => { m with table := [⟨5, 3, 0, 0⟩] })
    (withStaging (fun g => { g with slots := [hostSlot 1 8 .gathered], index := [⟨8, 1⟩] })
      (portA { walking with list := [c], nextId := 1 })))

/-- An open run of that READ from offset 0 of band 0. -/
def openRun0 (lbns blocks : List Nat) : FormingRead :=
  { id := 3, origin := .port .a, command := 0, band := 0, first := 0, lbns := lbns, blocks := blocks, slots := [], isOpen := true }

/-- The state after a step. -/
def stepped (s : State) : State :=
  match step s with
  | .next t => t
  | .fault _ => s
  | .refused _ => s

theorem test_lookup_staged_closes_the_run :
    let t := stepped (looking 6 3 false [openRun0 [5, 6, 7] [0, 1, 2]])
    ((t.port .a).pushes.map fun x => (x.index, x.slot)) = [(3, some 1)] ∧ t.staging.requests.get .general = [.reading 3 .a 7]
      ∧ ((t.slot 1).map fun x => x.pins) = some 1 := by decide +kernel
theorem test_lookup_extends_the_run :
    let t := stepped (looking 6 1 true [openRun0 [5] [0]])
    t.media.forming = [openRun0 [5, 6] [0, 1]] ∧ (t.band 0).map (fun r => r.refs) = some 0 := by decide +kernel

theorem witness_ReadLooksItsBlocksUp :
    let s := portA walking
    takingAt (s.port .a) = some 0x1000 ∧ s.recovery.part = .ready ∧ formatOk 1 s.limits.1 (recN 2 18) = true
      ∧ rangeExceeded 1 s.limits.1 s.limits.2 (recN 2 18) = false := by decide +kernel

theorem witness_ReadLooksItsBlocksUp_lookups :
    let s := looking 6 0 false []
    let full (s : State) := withStaging (fun g => { g with charges := g.charges.set .general 2 }) s
    let r := openRun0 [5] [0]
    s.pending = [] ∧ s.recovery.part = .ready ∧ s.cleaner.table = none
      ∧ (s.readers.map fun x => (x.1, x.2.work)) = [(.a, .read 0 false 0 0 0 [])] ∧ s.indexed 5 = none
      ∧ ((looking 6 3 false []).indexed 8, ((looking 6 3 false []).slot 1).isSome) = (some 1, true)
      ∧ (looking 6 4 true []).lookup 9 = none ∧ (looking 6 1 true [r]).lookup 6 = some (0, 1, 1)
      ∧ s.media.forming.filter (isOpenRun .a 0) = [] ∧ (looking 6 1 true [r]).media.forming.filter (isOpenRun .a 0) = [r]
      ∧ accountLimit (full s).staging.size .general ≤ (full s).staging.charges.get .general
      ∧ s.staging.requests.get .general = [] ∧ s.staging.charges.get .general < accountLimit s.staging.size .general
      ∧ s.queueRoom = true ∧ 1 = r.first + r.lbns.length ∧ 1 / (s.shape 0).track = r.first / (s.shape 0).track
      ∧ (looking 2 1 true [r]).readers.length = 1 ∧ 1 + 1 = (recN 2 5).count.toNat
      ∧ (looking 6 2 true [r]).lookup 7 = some (0, 2, 0) ∧ 2 ≠ r.first + r.lbns.length := by decide +kernel

theorem witness_WriteTrimAndFlushBegin :
    let s := portA walking
    let t : CommandRecord := { rec0 with count := 2, lbn := 18 }
    takingAt (s.port .a) = some 0x1000 ∧ s.recovery.part = .ready ∧ (∀ c ∈ (s.port .a).list, c.id < (s.port .a).nextId)
      ∧ formatOk 2 s.limits.1 (recN 2 18) = true ∧ s.streamValid .a (recN 2 18) = true
      ∧ rangeExceeded 2 s.limits.1 s.limits.2 (recN 2 18) = false
      ∧ formatOk 3 s.limits.1 t = true ∧ rangeExceeded 3 s.limits.1 s.limits.2 t = false
      ∧ formatOk 4 s.limits.1 rec0 = true ∧ s.recovery.journalWrite.active = false := by decide +kernel

theorem witness_LocateReportAndCheckpointBegin :
    let s := portA walking
    let l : CommandRecord := { rec0 with count := 1, lbn := 19 }
    let r : CommandRecord := { recN 1 0 with count := 6 }
    takingAt (s.port .a) = some 0x1000 ∧ s.recovery.part = .ready ∧ s.geo.inForce = some tiny
      ∧ formatOk 5 s.limits.1 l = true ∧ rangeExceeded 5 s.limits.1 s.limits.2 l = false
      ∧ s.indexed 19 = none ∧ s.lookup 19 = none
      ∧ (withMap (fun m => { m with table := [⟨19, 1, 5, 6⟩] }) s).lookup 19 = some (5, 6, 0)
      ∧ (bandAddress tiny 5 6).isSome = true
      ∧ formatOk 6 s.limits.1 r = true ∧ rangeExceeded 6 s.limits.1 s.limits.2 r = false
      ∧ formatOk 7 s.limits.1 rec0 = true ∧ s.recovery.checkpoint.state = .idle := by decide +kernel

theorem witness_TakeoverAndConfigBegin_takeover :
    let s := portA walking
    let held := withStaging (fun g => { g with owners := g.owners.set .b .a }) s
    let q := s.setPort .b walking
    takingAt (s.port .a) = some 0x1000 ∧ s.recovery.part = .ready ∧ rec0.pieces = [] ∧ held.takeoverHeld .a = true
      ∧ s.takeoverHeld .a = false ∧ isWalking (q.port .b).process = true ∧ forceBit rec0.flags = false
      ∧ isWalking (s.port .b).process = false ∧ forceBit ({ rec0 with flags := 0x21 } : CommandRecord).flags = true
      ∧ (q.port .b).list = [] ∧ ((s.setPort .b { walking with list := [doneCmd 0] }).port .b).list ≠ []
      ∧ (s.port .b).process = .stopped := by decide +kernel

/-- The draft of section 1.7, "validating the three-zone drive", with a user capacity and a MAPCAP. -/
def draftThree (user mapCap : Nat) : List DraftItem :=
  [⟨1, 0, 2⟩, ⟨2, 0, 3⟩, ⟨3, 0, 16⟩, ⟨4, 0, 1⟩, ⟨5, 0, 16⟩, ⟨6, 1, 900⟩, ⟨6, 2, 700⟩, ⟨6, 3, 500⟩, ⟨7, 1, 40⟩, ⟨7, 2, 31⟩, ⟨7, 3, 22⟩]
    ++ [⟨8, 1, 16⟩, ⟨8, 2, 17016⟩, ⟨8, 3, 34016⟩, ⟨9, 1, 1000⟩, ⟨9, 2, 1000⟩, ⟨9, 3, 800⟩, ⟨10, 0, user⟩, ⟨11, 0, mapCap⟩]
    ++ [⟨12, 0, 65536⟩, ⟨13, 0, 64⟩, ⟨14, 0, 16⟩, ⟨15, 0, 32⟩]

theorem test_draft_passes : failingCheck (draftThree 60000000 1048576) = none := by decide +kernel
theorem test_draft_check_19 : failingCheck (draftThree 63600000 1048576) = some 19 := by decide +kernel
theorem test_draft_check_19_edge : failingCheck (draftThree 63500000 1048576) = none := by decide +kernel
theorem test_draft_check_20 : failingCheck (draftThree 60000000 16777216) = some 20 := by decide +kernel

/-- The part UNCONFIGURED with Port A RUNNING, a draft and a cylinder count. -/
def drafted (draft : List DraftItem) (cylinders : Option Nat) : State :=
  let s := (State.reset.setPort .a walking).modRecovery fun r => { r with part := .unconfigured }
  { s with geo := { s.geo with draft := draft, cylinders := cylinders } }

theorem test_config_close_refused_by_check_19 :
    ((after (.configClose .a rec0) (drafted (draftThree 63600000 1048576) none)).port .a).list.map
      (fun c => c.status.map fun d => (d.status, d.result0)) = [some (.geometryInvalid, 19)] := by decide +kernel
theorem test_config_write_sets_the_item :
    draftGet (after (.configWrite .a { rec0 with lbn := 0x206, count := 700 }) (drafted [] none)).geo.draft 6 2 = some 700 := by
  decide +kernel

theorem witness_TakeoverAndConfigBegin_config :
    let s := drafted (draftThree 60000000 1048576) (some 48000)
    let c : CommandRecord := { rec0 with lbn := 0x206 }
    takingAt (s.port .a) = some 0x1000 ∧ s.recovery.part = .unconfigured ∧ s.geo.status = .editable ∧ c.pieces = []
      ∧ selector c.lbn = some (6, 2) ∧ failingCheck (drafted [] none).geo.draft = some 1
      ∧ failingCheck s.geo.draft = none ∧ s.geo.cylinders = some 48000
      ∧ lastCylinder (draftRecord s.geo.draft) < 48000 ∧ 47615 ≤ lastCylinder (draftRecord s.geo.draft)
      ∧ ({ s.geo with status := .closing } : GeometryUnit).status = .closing := by decide +kernel

/-! ### Witnesses: the end of an event -/

/-- A READ of Port A of LBNs 5 and 6, with blocks pushed and blocks failed. -/
def readOf2 (pushed : Nat) (failed : List (Nat × FailedBlock)) : Command :=
  cmd 0 1 (recN 2 5) (.read 2 false 0 0 pushed failed)

theorem test_read_fails_by_its_lowest_block :
    ((oneCmd (readOf2 0 [(1, .unrecovered), (0, .notRead)])).react.port .a).list.map (fun c => c.status)
      = [some { status := .notReady, blocks := 0, result0 := 0, result1 := BitVec.ofNat 64 (2 * 2 ^ 32) }] := by decide +kernel

theorem witness_ReadsWritesFlushesAndReportsFinish_read :
    let ok (c : Command) : Prop := c ∈ ((oneCmd c).port .a).list
      ∧ (∀ d ∈ ((oneCmd c).port .a).list, d.id = c.id → d = c) ∧ c.status = none
    ok (readOf2 2 []) ∧ ok (readOf2 1 [(1, .unrecovered)]) ∧ ok (readOf2 1 [])
      ∧ 2 + ([] : List (Nat × FailedBlock)).length = (readOf2 2 []).record.count.toNat
      ∧ (∀ x ∈ [(1, FailedBlock.unrecovered)], 1 ≤ x.1 ∧ (x.1 = 1 → x.2 = .unrecovered))
      ∧ 1 + ([] : List (Nat × FailedBlock)).length ≠ (readOf2 1 []).record.count.toNat := by decide +kernel

/-- A WRITE of two blocks, a FLUSH and a BAND REPORT of Port A, and one with a pad request of its own on stream A0. -/
def writeOf2 (accepted : Nat) : Command := cmd 0 2 (recN 2 5) (.write 2 accepted [])
def flushOf (journal : Option Bool) : Command := cmd 0 4 rec0 (.flush 3 journal)
def reportOf (n k : Nat) (read : List (Nat × BandRecord)) (entries : Nat) : Command :=
  cmd 0 6 { recN 1 0 with count := BitVec.ofNat 32 n } (.report k read entries)
def withPad (c : Command) : State :=
  (withStaging (fun g => { g with slots := [hostSlot 1 5 .gathered] }) (oneCmd c)).modPlacer .a0 fun x =>
    { x with requests := [{ owner := .command .a 0, slots := [1] }] }

theorem test_write_waits_for_its_pad :
    (((oneCmd (writeOf2 2)).react.port .a).list.map fun c => c.status.isSome) = [true]
      ∧ ((withPad (writeOf2 2)).react.port .a).list = [writeOf2 2] := by decide +kernel

theorem witness_ReadsWritesFlushesAndReportsFinish :
    (∀ c ∈ [writeOf2 2, writeOf2 1, flushOf (some true), flushOf (some false), flushOf none, reportOf 2 2 [] 2,
        reportOf 2 2 [] 1],
      c ∈ ((oneCmd c).port .a).list ∧ (∀ d ∈ ((oneCmd c).port .a).list, d.id = c.id → d = c) ∧ c.status = none
        ∧ ((oneCmd c).port .a).pulled = [] ∧ ((oneCmd c).port .b).pulled = []
        ∧ (allStreams.all fun st => ((oneCmd c).react.placer st).requests.isEmpty) = true)
      ∧ (((withPad (writeOf2 2)).react.placer .a0).requests.map fun q => q.owner) = [.command .a 0] := by decide +kernel

/-- A BAND REPORT of Port A of `n` bands that has its next record to read, over a table of 130 bands. -/
def reporting (n k : Nat) (read : List (Nat × BandRecord)) : State :=
  let s := oneCmd (reportOf n k read 0)
  { s with bands := { s.bands with records := List.replicate 130 emptyBand } }

theorem test_report_reads_then_pushes :
    let t := stepped (reporting 2 0 [])
    (t.port .a).pushes = [] ∧ ((stepped t).port .a).pushes.map (fun x => (x.index, x.address)) = [(0, 0x2000)] := by
  decide +kernel

theorem witness_ReadsWritesFlushesAndReportsFinish_reads :
    let s := reporting 130 127 []
    let u := reporting 2 1 [(0, emptyBand)]
    s.pending = [] ∧ s.recovery.part = .ready ∧ s.cleaner.table = none
      ∧ (s.readers.map fun x => (x.1, x.2.work)) = [(.a, .report 127 [] 0)] ∧ (s.band 127).isSome = true
      ∧ (127 + 1) % 128 = 0 ∧ u.readers.length = 1 ∧ (u.band 1).isSome = true ∧ 1 + 1 = (reportOf 2 1 [] 0).record.count.toNat
      ∧ (reporting 2 0 []).readers.length = 1 ∧ (0 + 1) % 128 ≠ 0 ∧ 0 + 1 ≠ (reportOf 2 0 [] 0).record.count.toNat := by
  decide +kernel

/-- A slot of LBN 5 that is HELD with its offset in band 0. -/
def heldSlot (n offset pins : Nat) : Slot :=
  { hostSlot n 5 .held with place := some { band := 0, offset := offset, track := offset / 4 }, pins := pins }

/-- Bands of 4 tracks. Stream A0 has a pad run from offset 4 to 7 of band 0 in flight, and holds slot 1 and the pinned slot 2 of
track 0 and slot 3 of track 1, for a pad request of the Cleaner. -/
def padFlies : State :=
  let s := ((State.reset.comeIntoForce { tiny with tracks := 4 }).modRecovery fun r => { r with part := .ready }).modSeq fun q =>
    { q with ready := true, shockMask := false }
  let run : OutstandingRun :=
    { op := 5, kind := .pad, band := 0, first := 4, count := 4, slots := [], number := 0, reserved := 0, claimed := false }
  let r : BandRecord := { emptyBand with state := .opened, owner := some .a0, wp := 8, done := 4 }
  flying { runOp .writeRun with pad := true, place := .band 0 4, count := 4 } .transferring
    (((withStaging (fun g => { g with slots := [heldSlot 1 0 0, heldSlot 2 1 1, heldSlot 3 4 0] }) s).putBand 0 r).modPlacer .a0
      fun x => { x with band := some 0, run := some run, retention := [1, 2, 3], pad := .placing
                        requests := [{ owner := .cleaner, slots := [1, 3] }] })

theorem test_held_slots_become_free :
    let t := after .writeTransferGood padFlies
    (t.placer .a0).requests = [{ owner := .cleaner, slots := [3] }] ∧ (t.placer .a0).retention = [3] ∧ t.slot 1 = none
      ∧ t.slot 2 = some { heldSlot 2 1 1 with releaseDue := true } := by decide +kernel

theorem witness_HeldSlotsAndPadRequestsEnd :
    let s := padFlies
    s.seq.state = .transferring ∧ (s.seq.current.map fun f => f.op.kind) = some .writeRun
      ∧ ((s.seq.current.bind fun f => s.runOf f.op).map fun x => (x.1, x.2.kind, x.2.first + x.2.count)) = some (.a0, .pad, 8)
      ∧ (s.placer .a0).band = some 0 ∧ ((s.band 0).map fun r => (r.state, r.suspect)) = some (.opened, none)
      ∧ s.staging.slots.Pairwise (fun x y => x.number < y.number) ∧ (s.placer .a0).retention.Nodup
      ∧ (∀ n ∈ (s.placer .a0).retention, (s.slot n).map (fun x => x.origin) = some (.stream .a0))
      ∧ (0 + 2) * (s.shape 0).track ≤ 4 + 4 ∧ ¬(1 + 2) * (s.shape 0).track ≤ 4 + 4
      ∧ (s.slot 1 = some (heldSlot 1 0 0)) ∧ (s.slot 2 = some (heldSlot 2 1 1)) ∧ (s.slot 3 = some (heldSlot 3 4 0)) := by
  decide +kernel

/-- The same with the run answered, its slots still held, and the placer's wp as given. -/
def padWaits (wp : Nat) : State :=
  (padFlies.putBand 0 { emptyBand with state := .opened, owner := some .a0, wp := wp, done := wp }).modPlacer .a0 fun x =>
    { x with run := none }

theorem test_pad_states :
    padFlies.padStateNow .a0 = .placing ∧ (padWaits 4).padStateNow .a0 = .padding 8 ∧ (padWaits 5).padStateNow .a0 = .padding 12
      ∧ (gathered 0).padStateNow .a0 = .none
      ∧ ((gathered 0).modPlacer .a0 fun x => { x with requests := [{ owner := .cleaner, slots := [1] }] }).padStateNow .a0
        = .placing := by decide +kernel

theorem witness_HeldSlotsAndPadRequestsEnd_states :
    let s := padFlies
    let u := padWaits 4
    (∀ n ∈ [1, 3], n ∉ (s.placer .a0).queue) ∧ (s.openBand .a0).isSome = true ∧ (s.placer .a0).pad = .placing
      ∧ (s.placer .a0).run.isSome = true ∧ (u.openBand .a0).isSome = true ∧ (u.placer .a0).run = none ∧ 0 < (u.shape 0).track
      ∧ 4 < (u.shape 0).capacity ∧ 4 % (u.shape 0).track = 0 ∧ 5 % (u.shape 0).track ≠ 0 ∧ 1 ∈ (u.placer .a0).retention
      ∧ ((gathered 0).placer .a0).requests = [] ∧ (gathered 0).staging.requests.get .portA = []
      ∧ ((gathered 0).openBand .a0).isSome = true ∧ ((gathered 0).placer .a0).pad = .none
      ∧ 1 ∈ ((gathered 0).placer .a0).queue := by decide +kernel

/-- Stream A0 in PADDING. -/
def padding (target : Nat) (s : State) : State := s.modPlacer .a0 fun x => { x with pad := .padding target }

/-- PADDING ends with the pad run that brings wp to the target and with a skip past it, and not before (R79), and with the loss of the
band (R84). -/
theorem test_padding_ends :
    let pad (i : Instr) (s : State) : PadState := ((after i s).placer .a0).pad
    pad (.padRunBuild .a0) (padding 7 (gathered 2)) = .padding 7 ∧ pad (.padRunBuild .a0) (padding 7 (gathered 4)) = .none
      ∧ pad (.writeFault 0) (padding 4 (transferring .writeRun .pad)) = .none
      ∧ pad (.writeFault 0) (padding 7 (transferring .writeRun .pad)) = .padding 7
      ∧ pad (.readTransferGood [readBack 5, readBack 9]) (padding 7 (verifying 3)) = .none := by decide +kernel

/-- Each end of PADDING, for the statements on builds, skips, retirements and pad states. -/
theorem witness_padding :
    let u := padding 7 (gathered 4)
    u.wantsPad .a0 = true ∧ (u.placer .a0).pad = .padding (4 + u.padRunLength .a0)
      ∧ ((padding 7 (gathered 2)).placer .a0).pad ≠ .padding (2 + (padding 7 (gathered 2)).padRunLength .a0)
      ∧ 4 ≤ skipTo (live0.shape 0) 0 ∧ ¬7 ≤ skipTo (live0.shape 0) 0
      ∧ (((transferring .writeRun .pad).runOf (runOp .writeRun)).map fun x => (x.2.kind, x.2.first)) = some (.pad, 0)
      ∧ u.openBand .a0 ≠ none ∧ isPadding (u.placer .a0).pad = true ∧ (u.placer .a0).requests = []
      ∧ live0.openBand .a0 = none := by decide +kernel

/-- A closed READ RUN of two blocks of Port A, and one of the Cleaner from offset 2 of band 1, that wait for their slots. -/
def readsWait (general cleaner : Nat) (s : State) : State :=
  let run := { openRun0 [5, 6] [0, 1] with isOpen := false }
  let other : FormingRead :=
    { id := 4, origin := .cleaner, command := 0, band := 1, first := 2, lbns := [7, 8], blocks := [], slots := [], isOpen := false }
  withStaging (fun g => { g with
    charges := (g.charges.set .general general).set .cleaner cleaner
    requests := (g.requests.set .general [.reading 3 .a 5, .reading 3 .a 6]).set .cleaner [.cleaning 4 7 2, .cleaning 4 8 3] })
      (withMedia (fun m => { m with forming := [run, other], stamp := 9 }) s)

theorem test_read_slots_are_granted :
    let t := after (.slotGrant .general) (readsWait 0 0 live0)
    let full := withMedia (fun m => { m with entryWait := List.replicate 64 (.op sysOp) }) live0
    ((t.media.forming.map fun r => r.id), t.staging.requests.get .general, t.staging.charges.get .general) = ([4], [], 2)
      ∧ (t.media.queue.map fun op => (op.kind, op.place, op.count)) = [(.readRun, .band 0 0, 2)]
      ∧ (t.media.queue.map fun op => (op.slots, op.blocks, op.arrival)) = [([some 0, some 1], [0, 1], 9)]
      ∧ t.staging.slots = [newSlot 0 .reading 5 (.port .a), newSlot 1 .reading 6 (.port .a)]
      ∧ (after (.slotGrant .general) (readsWait 0 0 full)).media.entryWait.length = 65 := by decide +kernel

theorem test_cleaning_slots_are_granted :
    let u := after (.slotGrant .cleaner) (readsWait 0 1 live0)
    (u.media.forming.map fun r => (r.id, r.slots)) = [(3, []), (4, [0])] ∧ u.media.queue = []
      ∧ u.staging.requests.get .cleaner = [.cleaning 4 8 3] ∧ u.cleaner.inRelocation = 1
      ∧ u.staging.slots = [{ newSlot 0 .cleaning 7 (.stream .cleaner) with source := some (1, 2) }] := by decide +kernel

theorem witness_SlotsAreGrantedFilledAndAccepted_reads :
    let s := readsWait 0 1 live0
    let full := withMedia (fun m => { m with entryWait := List.replicate 64 (.op sysOp) }) s
    s.media.forming.map (fun r => (r.id, r.lbns.length, r.slots)) = [(3, 2, []), (4, 2, [])]
      ∧ s.staging.requests.get .general = [.reading 3 .a 5, .reading 3 .a 6]
      ∧ s.staging.charges.get .general + 2 = accountLimit s.staging.size .general
      ∧ s.staging.requests.get .cleaner = .cleaning 4 7 2 :: [.cleaning 4 8 3]
      ∧ s.staging.charges.get .cleaner + 1 = accountLimit s.staging.size .cleaner
      ∧ s.queueRoom = true ∧ full.queueRoom = false ∧ s.recovery.part ≠ .faulted
      ∧ (s.modRecovery fun r => { r with part := .faulted }).recovery.part = .faulted := by decide +kernel

/-- RELEASING band 0, with its release held and its record as given, due for its test or not. -/
def releaseOf (live refs : Nat) (retest : Bool) (s : State) : State :=
  let t := (s.putBand 0 { emptyBand with state := .cleaning, live := live, refs := refs }).modCleaner fun c =>
    { c with state := .releasing, victim := some (0, .cleaning) }
  { t with bands := { t.bands with release := some 0, retest := retest } }

/-- The same at a test, with the journal as given. -/
def releasing (live refs : Nat) (journal : List JournalEntry) : State :=
  (releaseOf live refs true live0).modRecovery fun r => { r with journal := journal, nextSequence := 1 }

/-- An unwritten record. -/
def unwritten0 : JournalEntry := { record := { sequence := 0, kind := .trim 5 1 0 }, written := false }

theorem test_release_empties :
    (releasing 0 0 []).react.band 0 = some emptyBand ∧ (releasing 0 0 []).react.cleaner.state = .idle
      ∧ (releasing 0 1 []).react.bands.release = some 0
      ∧ (releasing 0 0 [unwritten0]).react.recovery.journalWrite.active = true := by decide +kernel

/-- The record left unwritten is written by a journal write, which has the release tested, or released by a checkpoint's finish,
which does not (R35). -/
theorem test_a_journal_write_tests_a_release_and_a_finish_does_not :
    let j := (releaseOf 0 0 false (journalling [0] 0 false)).modRecovery fun r => { r with journal := r.journal.take 1 }
    let t := after .writeTransferGood j
    let u := after .writeTransferGood (releaseOf 0 0 false headerWrite)
    t.band 0 = some emptyBand ∧ (u.recovery.unwritten, u.recovery.checkpoint.state) = ([], .idle)
      ∧ ((u.band 0).map fun r => r.state) = some .cleaning ∧ u.bands.release = some 0 := by decide +kernel

/-- The part faults with a read run of Port A still forming, the last reference of a band whose release is held. -/
theorem test_fault_releases_the_last_reference :
    let s := withMedia (fun m => { m with forming := [openRun0 [5] [0]] }) (releasing 0 1 [])
    let t := after .checkWordTest { s with geo := { s.geo with checkWord := s.geo.checkWord + 1 } }
    t.recovery.part = .faulted ∧ t.band 0 = some emptyBand ∧ t.bands.release = none := by decide +kernel

theorem witness_AHeldReleaseEmptiesItsBand :
    let s := releasing 0 0 []
    s.bands.release = some 0 ∧ s.bands.retest = true ∧ (releaseOf 0 0 false live0).bands.retest = false ∧ ((s.band 0).map fun r => r.state) = some .cleaning ∧ s.cleaner.victim = some (0, .cleaning)
      ∧ s.cleaner.state = .releasing ∧ s.cleaner.retired = [] ∧ s.recovery.unwritten = [] ∧ s.recovery.part = .ready
      ∧ ((s.band 0).map fun r => (r.live, r.refs)) = some (0, 0)
      ∧ (((releasing 0 1 []).band 0).map fun r => r.refs) = some 1 ∧ (releasing 0 0 [unwritten0]).recovery.unwritten ≠ []
      ∧ ((releasing 1 0 []).modRecovery fun r => { r with part := .faulted }).recovery.part ≠ .ready := by decide +kernel

/-- One EMPTY band, so that the mode is URGENT. -/
def few (s : State) : State := { s with bands := { s.bands with emptyCount := 1 } }

/-- A Cleaner changed. -/
def cleaning (f : Cleaner → Cleaner) : State := live0.modCleaner f

theorem witness_TheCleanerMovesThroughItsStates_choice :
    let waits := (few (live0.putBand 2 { emptyBand with state := .retired, live := 1, wp := 4, done := 4 })).modCleaner fun c =>
      { c with retired := [(2, .awaiting)] }
    let rooms := { few live0 with cleaner := { live0.cleaner with state := .selecting } }
    State.reset.recovery.part ≠ .ready ∧ live0.recovery.part = .ready ∧ live0.cleaner.victim = none ∧ live0.cleaner.state = .idle
      ∧ live0.modeNow = .idle ∧ (few live0).modeNow = .urgent ∧ (few live0).cleaner.retired = []
      ∧ (2, .awaiting) ∈ waits.cleaner.retired ∧ ((waits.band 2).map fun r => r.live) = some 1
      ∧ rooms.cleaner.table = none ∧ rooms.cleaner.rescan = false := by decide +kernel

theorem test_room_and_scan :
    let s (seen : Nat) (t : Option TableScan) : State :=
      { live0 with cleaner := { live0.cleaner with state := .selecting, mode := .background, table := t, roomSeen := seen }
                   bands := { live0.bands with emptyCount := 2 } }
    (s 7 none).cleanerStep.cleaner.table = some { mode := .background, cursor := 0, kept := none }
      ∧ (s 14 none).cleanerStep.cleaner.table = none
      ∧ (s 14 (some { mode := .urgent, cursor := 3, kept := none })).cleanerStep.cleaner.table
        = some { mode := .background, cursor := 0, kept := none }
      ∧ (s 14 (some { mode := .background, cursor := 3, kept := none })).cleanerStep.cleaner.table
        = some { mode := .background, cursor := 3, kept := none }
      ∧ (few (s 0 none)).roomCapacity = 7 ∧ (few (s 0 none)).cleanerStep.cleaner.table = none := by decide +kernel

theorem witness_TheCleanerMovesThroughItsStates_selecting :
    let s : State := { live0 with cleaner := { live0.cleaner with state := .selecting, mode := .background }
                                  bands := { live0.bands with emptyCount := 2 } }
    s.cleaner.victim = none ∧ s.modeNow = .background ∧ s.roomWith 7 < s.cleanerRoom ∧ s.cleanerRoom ≤ s.roomWith 14
      ∧ (cleaning fun c => { c with state := .selecting }).modeNow = .idle := by decide +kernel

/-- The Cleaner in a state with band 0 its victim, of a kind, with nothing left to read. -/
def victim0 (st : CleanerState) (k : VictimKind) (f : Cleaner → Cleaner) : State :=
  (live0.putBand 0 { emptyBand with state := if k = .cleaning then .cleaning else .retired }).modCleaner fun c =>
    f { c with state := st, victim := some (0, k), mode := .background }

theorem test_cleaner_drains_and_releases :
    let s := victim0 .draining .cleaning id
    s.cleanerStep.cleaner.drain = true ∧ s.cleanerStep.cleanerStep.bands.release = some 0
      ∧ s.cleanerStep.cleanerStep.cleaner.state = .releasing
      ∧ (victim0 .relocating .cleaning id).cleanerStep.cleaner.state = .draining
      ∧ (victim0 .relocating .retired id).cleanerStep.cleaner.state = .idle := by decide +kernel

theorem witness_TheCleanerMovesThroughItsStates_victim :
    let s := victim0 .relocating .cleaning fun c => { c with recheck := [(0, 5), (1, 6)] }
    let d := victim0 .draining .cleaning id
    let open1 := (withPad (writeOf2 2)).modPlacer .cleaner fun x => { x with requests := [{ owner := .cleaner, slots := [1] }] }
    s.recovery.part = .ready ∧ (s.band 0).isSome = true ∧ s.victimPlan = none ∧ s.cleaner.candidates = []
      ∧ s.cleaner.outstanding = 0 ∧ s.cleaner.inRelocation = 0 ∧ (∀ e ∈ s.cleaner.recheck, s.liveCheck e.2 0 e.1 = false)
      ∧ (victim0 .relocating .retired id).cleaner.victim = some (0, .retired)
      ∧ d.cleaner.drain = false ∧ d.cleaner.recheck = [] ∧ ((d.band 0).map fun r => r.live) = some 0
      ∧ open1.padOpen .cleaner = true ∧ d.padOpen .cleaner = false ∧ d.recovery.unwritten = []
      ∧ (victim0 .draining .cleaning fun c => { c with drain := true }).cleaner.drain = true
      ∧ (victim0 .releasing .cleaning id).bands.release = none ∧ (victim0 .releasing .cleaning id).modeNow = .idle
      ∧ (few (victim0 .releasing .cleaning id)).modeNow = .urgent
      ∧ (few (victim0 .relocating .retired id)).modeNow = .urgent := by decide +kernel

/-! ### Witnesses: the clauses beside the first of a statement -/

theorem witness_EveryStepKeepsTheCountsListsAndMasks :
    let s := looking 6 1 true [openRun0 [5] [0]]
    s.RunsNumbered ∧ s.media.forming ≠ [] ∧ ∃ t, step s = .next t :=
  ⟨by unfold State.RunsNumbered; decide +kernel, by decide +kernel, ⟨_, rfl⟩⟩

/-- A table that a rebuild left longer than MAPCAP, and one below it: LBNs 0, 2, 4 and so on, each with a record of its own. -/
def longMap (n : Nat) : State :=
  withMap (fun m => { m with freeCount := 0, table := (List.range n).map fun k => ⟨2 * k, 1, k % 6, k % 3⟩ }) live0

theorem test_free_count_of_a_long_table :
    (longMap 12).mapCap = 10 ∧ ((longMap 12).changeMap [.remove 0 0]).map.freeCount = 0
      ∧ ((longMap 12).changeMap [.remove 0 4]).map.freeCount = 1 := by decide +kernel

theorem witness_MapChangesAreExact_count :
    let s := withMap (fun m => { m with writePhase := true }) (longMap 3)
    let t := s.changeMap [.remove 0 0]
    (longMap 3).PhaseKept ∧ s.PhaseKept ∧ s.map.writePhase = true ∧ (t.map.freeCount, t.map.table.length) = (8, 3) := by
  unfold State.PhaseKept; decide +kernel

theorem witness_VictimScanKeepsABestBandAndNamesIt_eligible :
    ((selecting true).band 0).map (fun r => (selecting true).eligibleFull 0 r) = some true
      ∧ (List.range 6).all (fun b => ((selecting false).band b).all fun r => !(selecting false).eligibleFull b r) = true := by
  decide +kernel

/-- DRAINING a CLEANING band 0 that has a live block left, with nothing to recheck. -/
def drainsLive : State :=
  (victim0 .draining .cleaning id).putBand 0 { emptyBand with state := .cleaning, live := 1, wp := 4, done := 4 }

theorem test_a_live_block_left_retires_the_victim :
    let t := drainsLive.cleanerStep
    (t.band 0).map (fun r => r.state) = some .retired ∧ t.cleaner.victim = some (0, .retired)
      ∧ (t.recovery.journal.map fun e => e.record.kind) = [.retire 0] ∧ t.cleanerStep.cleaner.state = .idle := by decide +kernel

theorem witness_TheCleanerMovesThroughItsStates_live_left :
    drainsLive.cleaner.state = .draining ∧ drainsLive.cleaner.victim = some (0, .cleaning) ∧ drainsLive.cleaner.drain = false
      ∧ drainsLive.cleaner.recheck = [] ∧ ((drainsLive.band 0).map fun r => (r.state, r.live)) = some (.cleaning, 1)
      ∧ drainsLive.recovery.part = .ready ∧ drainsLive.recovery.journal.length < Config.journalPlaces
      ∧ Config.journalPlaces ≤ (List.replicate Config.journalPlaces unwritten0).length
      ∧ (victim0 .draining .retired id).cleaner.victim = some (0, .retired) := by
  refine ⟨?_, ?_, ?_, ?_, ?_, ?_, ?_, ?_, ?_⟩
  case refine_8 => simp
  all_goals decide +kernel

/-- RELOCATING band 0, where LBNs 5 to 7 stand from offset 0, with the candidates, the charge of the cleaner account and the size of
staging as given. -/
def forms (candidates : List (Nat × Nat)) (charge size : Nat) : State :=
  (withStaging (fun g => { g with size := size, charges := g.charges.set .cleaner charge })
    (withMap (fun m => { m with table := [⟨5, 3, 0, 0⟩] }) (victim0 .relocating .cleaning id))).modCleaner fun c =>
      { c with candidates := candidates }

/-- The candidate of LBN 9 is DEAD, and offset 3 does not follow offset 1. -/
theorem test_a_read_run_is_formed :
    let t := (forms [(0, 9), (1, 6), (2, 7), (4, 5)] 0 200).cleanerStep
    t.cleaner.candidates = [(4, 5)] ∧ t.cleaner.inRelocation = 2
      ∧ (t.staging.slots.map fun x => (x.lbn, x.source)) = [(6, some (0, 1)), (7, some (0, 2))]
      ∧ (t.media.queue.map fun op => (op.place, op.count)) = [(.band 0 1, 2)] := by decide +kernel

theorem witness_TheCleanerFormsItsReadsAndRechecks :
    let s := forms [(0, 9), (1, 6), (2, 7), (4, 5)] 0 200
    let w := forms [(0, 5), (1, 6), (2, 9)] 400 200
    s.cleaner.victim = some (0, .cleaning) ∧ (s.band 0).isSome = true ∧ s.recovery.part = .ready ∧ s.cleaner.state = .relocating
      ∧ s.cleaner.outstanding < 4 ∧ s.cleaner.candidates = [(0, 9)] ++ [(1, 6), (2, 7)] ++ [(4, 5)]
      ∧ s.liveCheck 9 0 0 = false ∧ s.liveCheck 6 0 1 = true ∧ s.liveCheck 7 0 2 = true
      ∧ 1 / (s.shape 0).track = 2 / (s.shape 0).track ∧ s.staging.requests.get .cleaner = [] ∧ s.queueRoom = true
      ∧ (∀ f ∈ s.media.forming, f.id < s.media.stamp)
      ∧ s.staging.charges.get .cleaner + 2 ≤ accountLimit s.staging.size .cleaner
      ∧ accountLimit w.staging.size .cleaner ≤ w.staging.charges.get .cleaner
      ∧ w.liveCheck 5 0 0 = true ∧ w.liveCheck 6 0 1 = true ∧ w.liveCheck 9 0 2 = false
      ∧ (forms [(0, 9)] 0 200).cleaner.candidates = [(0, 9)] ++ [] ++ [] := by decide +kernel

theorem test_slot_grant_two :
    let t := after (.slotGrant .portA) (asking 4)
    (t.staging.slots.map fun x => (x.number, x.lbn)) = [(0, 5), (1, 9)] ∧ t.staging.requests.get .portA = []
      ∧ t.staging.charges.get .portA = 6 := by decide +kernel

theorem witness_SlotsAreGrantedFilledAndAccepted_two :
    let s := asking 4
    let granted : List SlotRequest := [.fill .a 0 .a0 5, .fill .a 1 .a1 9]
    s.staging.requests.get .portA = granted ++ []
      ∧ s.staging.streamAccount .a0 = .portA ∧ s.staging.streamAccount .a1 = .portA
      ∧ s.staging.charges.get .portA + granted.length ≤ accountLimit s.staging.size .portA := by decide +kernel

/-- The acceptance of LBN 6 inside the WRITING group 5, 6, 7 with records available. -/
def acceptSplits : State := withMap (fun m => { m with freeCount := 10 }) acceptWaits

theorem test_an_interior_acceptance_reserves_two :
    let t := after (.acceptance .a) acceptSplits
    t.map.reserved = 4 ∧ t.indexed 6 = some 3 ∧ (t.slot 1).map (fun x => x.superseded) = some true := by decide +kernel

theorem witness_SlotsAreGrantedFilledAndAccepted_interior :
    let s := acceptSplits
    (s.port .a).pulled = 3 :: [] ∧ s.slot 3 = some (hostSlot 3 6 .filling) ∧ s.interiorFor (hostSlot 3 6 .filling) = some 1
      ∧ (s.slot 1).map (fun y => y.origin) = some (.stream .a0) ∧ (s.placer .a0).run.isSome = true ∧ 2 ≤ s.map.available := by
  decide +kernel

/-- The last block of a WRITE of one block, pulled into slot 1. -/
def lastBlock (flags : BitVec 8) : State :=
  let c := cmd 0 2 { recN 1 5 with flags := flags } (.write 1 0 [])
  (withStaging (fun g => { g with slots := [{ hostSlot 1 5 .filling with command := some (.a, 0) }] }) live0).setPort .a
    { walking with list := [c], nextId := 1, pulled := [1] }

theorem test_durable_write_asks_for_its_pad :
    let t := after (.acceptance .a) (lastBlock 0xff)
    (t.placer .a0).requests = [{ owner := .command .a 0, slots := [1] }]
      ∧ (((after (.acceptance .a) (lastBlock 1)).port .a).list.map fun c => c.status.map fun d => d.status) = [some .done]
      ∧ ((t.port .a).list.map fun c => c.status) = [none] := by decide +kernel

theorem witness_HeldSlotsAndPadRequestsEnd_acceptance :
    let ok (s : State) (durable : Bool) : Prop :=
      (s.port .a).pulled = 1 :: [] ∧ ((s.slot 1).map fun x => (x.command, s.interiorFor x)) = some (some (.a, 0), none)
        ∧ ((s.command .a 0).map fun c => (c.status, c.work, c.record.count.toNat, durableBit c.record.flags))
          = some (none, .write 1 0 [], 0 + 1, durable)
    ok (lastBlock 0xff) true ∧ ok (lastBlock 1) false := by decide +kernel

/-- Nothing waits for placement and slot 1 is HELD, while a request waits on the stream's account at its limit. -/
def pressed : State :=
  withStaging (fun g => { g with charges := g.charges.set .portA 16, requests := g.requests.set .portA [.fill .a 0 .a0 9] })
    ((padWaits 5).modPlacer .a0 fun x => { x with requests := [], pad := .none })

theorem test_pressure_pad : pressed.padStateNow .a0 = .padding 12 := by decide +kernel

theorem witness_HeldSlotsAndPadRequestsEnd_pressure :
    (pressed.openBand .a0).isSome = true ∧ isPadding (pressed.placer .a0).pad = false ∧ (pressed.placer .a0).pad = .none
      ∧ (pressed.placer .a0).run = none ∧ 0 < (pressed.shape 0).track ∧ 5 < (pressed.shape 0).capacity
      ∧ (pressed.placer .a0).retention ≠ [] ∧ pressed.waitingCount .a0 = 0
      ∧ pressed.staging.requests.get (pressed.staging.streamAccount .a0) ≠ []
      ∧ accountLimit pressed.staging.size (pressed.staging.streamAccount .a0)
        ≤ pressed.staging.charges.get (pressed.staging.streamAccount .a0) := by decide +kernel

theorem witness_CheckpointFixesWritesAndEnds_waits_for_a_place :
    let s := quiescing (withMedia (fun m => { m with queue := List.replicate 64 readOp }) live0)
    s.queueRoom = false ∧ s.noRunWrites = true ∧ (after .watermarkEvent s).media.entryWait.length = 1 := by decide +kernel

/-- Stop requested in a process and at a position. -/
def stopAsked (process : Process) (position : Position) : PortEngine :=
  { walking with process := process, position := position, stopRequested := true, list := [cmd 0 0 rec0 .none], nextId := 1 }

theorem test_start_clears_stop_requested :
    let go (e : PortEngine) := (after (.start .a) (portA e)).port .a
    (go (stopAsked .running (.atRecord 0x1000))).walk = .record ∧ (go (stopAsked .running (.afterRecord 0x1000))).walk = .pollNext
      ∧ (go { stopAsked .suspendedEnd (.afterRecord 0x1000) with autopoll := 3 }).pollTimer = some 3
      ∧ (go (stopAsked .halted (.atRecord 0x1000))).stopRequested = true := by decide +kernel

theorem witness_PortWordWrites_start :
    let e := stopAsked .running (.atRecord 0x1000)
    e.linkUp = true ∧ e.process ≠ .stopped ∧ e.process ≠ .halted ∧ e.stopRequested = true ∧ e.teardown = false ∧ e.walk = .idle
      ∧ e.list.length < 32 ∧ (stopAsked .suspendedEnd (.afterRecord 0x1000)).process ≠ .running
      ∧ (stopAsked .halted .none).process = .halted := by decide +kernel

/-- The notice line by its two causes: a released unit with DONE MARK ahead, and a latched flag that is enabled. -/
theorem test_notice_line :
    let s (released : Bool) (ack : Word64) (mask : BitVec 6) : State :=
      (portA { walking with ackMark := ack, flags := { walking.flags with chainFormat := true } }).setNotice .a
        { NoticeUnit.reset with released := released, mask := mask }
    (s true 1 0).noticeLine .a = true ∧ (s true 0 0x3B).noticeLine .a = false ∧ (s false 1 0).noticeLine .a = false
      ∧ (s false 0 0x04).noticeLine .a = true := by decide +kernel

theorem test_blocks_done :
    blocksDoneAtEnd (cmd 0 1 rec0 (.read 2 false 0 0 1 [])) = 1 ∧ blocksDoneAtEnd (cmd 0 2 rec0 (.write 3 2 [])) = 2
      ∧ blocksDoneAtEnd (cmd 0 3 { rec0 with count := 9 } (.trim true)) = 9
      ∧ blocksDoneAtEnd (cmd 0 3 { rec0 with count := 9 } (.trim false)) = 0
      ∧ blocksDoneAtEnd (reportOf 130 130 [] 128) = 128 := by decide +kernel

theorem test_formats :
    formatOk 1 20 (recN 4 0) = true ∧ formatOk 1 20 { recN 4 0 with count := 5 } = false ∧ formatOk 5 20 { rec0 with count := 2 } = false
      ∧ selector 0x2009 = some (9, 32) ∧ selector 0x2109 = none ∧ rangeExceeded 5 20 6 { rec0 with count := 1, lbn := 20 } = true
      ∧ rangeExceeded 1 20 6 (recN 2 18) = false := by decide +kernel

theorem test_first_failing_check :
    failingCheck (draftThree 60000000 1048576 |>.filter fun e => e.item ≠ 9 ∨ e.index ≠ 2) = some 8
      ∧ failingCheck (⟨17, 3, 2⟩ :: draftThree 60000000 1048576) = some 18 := by decide +kernel

/-- The draft's values are below 2^32, as CONFIG WRITE stores them. -/
theorem witness_TakeoverAndConfigBegin_draft : ∀ e ∈ draftThree 60000000 1048576, e.value < 2 ^ 32 := by decide +kernel

/-! ### Witnesses: what a placer would build -/

/-- Slots 1 and 2 wait, and the first is in the set of a pad request, or none is. -/
def placingA (set : List Nat) (pad : PadState) : State :=
  (gathered 0).modPlacer .a0 fun x => { x with pad := pad, requests := [{ owner := .cleaner, slots := set }] }

theorem test_planned_run :
    ((gathered 0).plannedRun .a0).map (fun x => x.number) = [1, 2] ∧ ((gathered 3).plannedRun .a0).map (fun x => x.number) = [1]
      ∧ ((placingA [1] .placing).plannedRun .a0).map (fun x => x.number) = [1] ∧ (placingA [9] .placing).plannedRun .a0 = []
      ∧ ((gathered 2).modPlacer .a0 fun x => { x with pad := .padding 7 }).padRunLength .a0 = 2 := by decide +kernel

theorem witness_WhatAPlacerWouldBuild :
    let s := gathered 0
    let p := placingA [1] .placing
    s.openBand .a1 = none ∧ (s.openBand .a0).isSome = true ∧ (s.placer .a0).pad ≠ .placing ∧ s.wantsRun .a0 = true
      ∧ (p.placer .a0).pad = .placing ∧ (p.placer .a0).queue = [] ++ 1 :: [2] ∧ p.wantsRun .a0 = true
      ∧ (∀ n ∈ ((placingA [9] .placing).placer .a0).queue, n ∉ [9]) ∧ (gathered 7).wantsFooter .a0 = true
      ∧ ((gathered 2).modPlacer .a0 fun x => { x with pad := .padding 7 }).wantsPad .a0 = true := by decide +kernel

/-! ### Witnesses: the candidates of the rebuild -/

/-- Band 2 as a candidate from offset 0 with floor 3, and band 4 behind it where another is to come. -/
def candidate2 : Candidate := { band := 2, start := 0, floor := 3, footerUsed := false, taken := [], last := none }
def reads2 (o : Nat) (op : MediaOp) (step : RebuildStep) (another : Bool) : State :=
  rebuilding { op with place := .band 2 o } { Rebuild.start with
    step := step, todo := candidate2 :: (if another then [{ candidate2 with band := 4 }] else []) }

/-- A HOST block of an LBN with a run number and the volume's check word, and a footer block of entries. -/
def hostBlock (lbn run : Nat) : MediaBlock :=
  { content := .user [], tag := some { entry := { kind := .host, lbn := lbn, run := run, source := none }, check := live0.geo.checkWord } }
def footerBlock (es : List Entry) : MediaBlock := { hostBlock 0 9 with content := .footer es }
def entryOf (lbn run : Nat) : Entry := { kind := .host, lbn := lbn, run := run, source := none }

theorem test_footer_gives_the_map :
    let t := after (.readTransferGood [footerBlock [entryOf 5 4, entryOf 6 4]]) (reads2 7 (tagOp 2 7) .footer false)
    t.lookup 5 = some (2, 0, 1) ∧ t.lookup 6 = some (2, 1, 0) := by decide +kernel

/-- A block below the floor is not of the fill: the first offset of the next track is read. -/
theorem test_tags_go_to_the_next_track :
    let t := after (.readTransferGood [hostBlock 5 4, hostBlock 6 2]) (reads2 0 { tagOp 2 0 with count := 2 } (.tags 0 false) true)
    (t.media.queue.map fun op => (op.place, op.count)) = [(.band 2 4, 1)]
      ∧ (t.recovery.rebuild.map fun r => r.todo.map fun c => c.taken) = some [[(0, entryOf 5 4)], []] := by decide +kernel

theorem witness_ACandidateGivesItsBlocks :
    let s := reads2 7 (tagOp 2 7) .footer false
    let t := reads2 0 { tagOp 2 0 with count := 2 } (.tags 0 false) true
    let b := hostBlock 5 4
    let e := reads2 0 (tagOp 2 0) (.tags 0 false) true
    let retried := e.modSeq fun q => { q with current := q.current.map fun f => { f with retry := some (0, 4) } }
    s.seq.state = .transferring
      ∧ (s.seq.current.map fun f => decide (f.op.kind = .readRun ∧ f.op.origin = .recovery ∧ f.delivered = [] ∧ f.next = 0
          ∧ f.op.count = [some (footerBlock [])].length)) = some true
      ∧ s.recovery.part = .rebuilding ∧ (s.recovery.rebuild.map fun r => (r.step, r.todo)) = some (.footer, candidate2 :: [])
      ∧ s.media.queue.length + s.media.entryWait.length < Config.queueLimit ∧ candidate2.start < (s.shape 2).capacity
      ∧ (footerBlock []).tag.map (fun t => (decide (t.check = s.geo.checkWord), decide (candidate2.floor ≤ t.entry.run)))
        = some (true, true)
      ∧ (t.recovery.rebuild.map fun r => (r.step, r.lastRun, r.todo.length)) = some (.tags 0 false, 0, 2)
      ∧ (t.seq.current.map fun f => f.op.count) = some 2 ∧ b.tag.map (fun t => t.entry) = some (entryOf 5 4)
      ∧ candidate2.floor ≤ (entryOf 5 4).run ∧ (entryOf 6 2).run < candidate2.floor ∧ (0 + 1) / 4 * 4 + 4 < (t.shape 2).capacity
      ∧ (retried.seq.current.map fun f => decide (4 ≤ (f.deliver []).retries
          ∧ f.delivered ++ ([] : List MediaBlock).map some ++ [none] = [none] ∧ f.op.count = 1)) = some true := by decide +kernel

theorem test_last_written :
    lastWritten { candidate2 with taken := [(0, entryOf 5 4), (1, { entryOf 6 4 with kind := .none })] } = some 0
      ∧ lastWritten { candidate2 with start := 3 } = some 2 ∧ lastWritten candidate2 = none := by decide +kernel

/-- Items in run-number order: a relocation from the place that a HOST item gave, a trim after it, and a HOST item at a free count of
0, which is passed over where it needs a record and applied where it joins a neighbour. -/
theorem test_replay_order_and_room :
    let rel : Entry := { kind := .relocated, lbn := 5, run := 2, source := some (1, 0) }
    replayAll 9 [.trim 6 1 3, .place 2 4 rel, .place 1 0 (entryOf 5 1), .place 1 1 (entryOf 6 1)] [] = [⟨5, 1, 2, 4⟩]
      ∧ replayAll 1 [.place 2 0 (entryOf 9 1)] [⟨5, 2, 1, 0⟩] = [⟨5, 2, 1, 0⟩]
      ∧ replayAll 1 [.place 1 2 (entryOf 7 1)] [⟨5, 2, 1, 0⟩] = [⟨5, 3, 1, 0⟩]
      ∧ replayAll 1 [.trim 6 1 1, .place 1 3 (entryOf 8 2)] [⟨5, 3, 1, 0⟩] = [⟨5, 1, 1, 0⟩, ⟨7, 2, 1, 2⟩] := by decide +kernel

/-! ### Witnesses: builds, skips and verifies -/

/-- Slot 1 superseded in front of slot 2 in the queue, with a number of READs that pin it. -/
def passedOver (pins : Nat) : State :=
  withStaging (fun g => { g with slots := [{ hostSlot 1 5 .gathered with superseded := true, pins := pins }, hostSlot 2 6 .gathered]
                                 index := [⟨6, 2⟩] })
    ((gathered 0).modPlacer .a0 fun x => { x with idleDue := true })

/-- A build puts its entries into the summary, and a skip takes them out again; a pad run's entries are PAD. -/
theorem test_summary_of_builds_and_skips :
    let t := after (.runBuild .a0) (gathered 2)
    let pad := after (.padRunBuild .a0) ((gathered 2).modPlacer .a0 fun x => { x with pad := .padding 7 })
    let skips := after (.writeFault 1) ((transferring .writeRun .data).modPlacer .a0 fun x => { x with
      summary := [(0, entryOf 5 0), (1, entryOf 6 0)] })
    (t.placer .a0).summary = [(2, entryOf 5 0), (3, entryOf 6 0)] ∧ (skips.placer .a0).summary = []
      ∧ (pad.placer .a0).summary.map (fun e => (e.1, e.2.kind)) = [(2, .pad), (3, .pad)] := by decide +kernel

theorem test_superseded_slots_leave_at_the_build :
    let t := after (.runBuild .a0) (passedOver 0)
    let u := after (.runBuild .a0) (passedOver 1)
    (t.staging.slots.map fun x => x.number) = [2] ∧ (t.placer .a0).queue = []
      ∧ (u.staging.slots.map fun x => (x.number, x.releaseDue)) = [(1, true), (2, false)] := by decide +kernel

theorem witness_RunFooterAndPadBuilds_superseded :
    let s := passedOver 1
    s.mayBuild = true ∧ s.wantsRun .a0 = true ∧ s.recordsCover .a0 = true ∧ s.queueRoom = true
      ∧ (s.placer .a0).queue = [1] ++ 2 :: [] ∧ ((s.plannedRun .a0).getLast?.map fun x => x.number) = some 2
      ∧ ((s.slot 1).map fun x => (x.superseded, x.origin, x.pins)) = some (true, .stream .a0, 1)
      ∧ (((passedOver 0).slot 1).map fun x => x.pins) = some 0 := by decide +kernel

/-- Slot 2, superseded by slot 3, between slots 1 and 3 in the queue. -/
def passedInside : State :=
  withStaging (fun g => { g with slots := [hostSlot 1 5 .gathered, { hostSlot 2 6 .gathered with superseded := true },
                                          hostSlot 3 6 .gathered], index := [⟨5, 1⟩, ⟨6, 3⟩] })
    ((gathered 0).modPlacer .a0 fun x => { x with idleDue := true, queue := [1, 2, 3] })

/-- R72: the superseded slot is freed before the placer asks for the records that are short, for an entry place, for room in the
queue, or for a run number; and in a wait at the end of the event that follows. A placer that waits for nothing keeps it. -/
theorem test_superseded_slots_leave_before_the_waits :
    let left (s : State) : List Nat × List Nat := (s.staging.slots.map fun x => x.number, (s.placer .a0).queue)
    let short := withMap (fun m => { m with freeCount := 2 }) passedInside
    let t := after (.runBuild .a0) short
    left t = ([1, 3], [1, 3]) ∧ t.map.recordWait = [.placer .a0] ∧ (t.placer .a0).run = none
      ∧ left (after (.runBuild .a0) (noEntries passedInside)) = ([1, 3], [1, 3])
      ∧ left (after (.runBuild .a0) (withMedia (fun m => { m with queue := List.replicate 64 readOp }) passedInside))
          = ([1, 3], [1, 3])
      ∧ left (after (.runBuild .a0) (withMap (fun m => { m with runCounter := 281474976710656 }) passedInside)) = ([1, 3], [1, 3])
      ∧ left (after (.acceptance .a) (withMap (fun m => { m with recordWait := [.placer .a0] }) short)) = ([1, 3], [1, 3])
      ∧ left (after (.acceptance .a) passedInside) = ([1, 2, 3], [1, 2, 3]) := by decide +kernel

theorem witness_RunsWaitForRecordsPlacesAndCheckpoints_passes_over :
    let s := withMap (fun m => { m with freeCount := 2 }) passedInside
    let full := withMedia (fun m => { m with queue := List.replicate 64 readOp }) passedInside
    s.wantsRun .a0 = true ∧ s.recordsCover .a0 = false ∧ .placer .a0 ∉ s.map.recordWait
      ∧ (s.placer .a0).queue = [1, 2] ++ 3 :: [] ∧ ((s.plannedRun .a0).getLast?.map fun x => x.number) = some 3
      ∧ ((s.slot 2).map fun x => (x.superseded, x.origin, x.pins)) = some (true, .stream .a0, 0)
      ∧ ((s.slot 1).map fun x => x.superseded) = some false
      ∧ full.wantsRun .a0 = true ∧ full.mayBuild = true ∧ full.recordsCover .a0 = true ∧ full.map.entryFree (.placer .a0) = true
      ∧ full.queueRoom = false ∧ (∀ w ∈ full.media.entryWait, waitingRun .a0 w = none)
      ∧ passedInside.wantsRun .a0 = true ∧ passedInside.mayBuild = true ∧ .placer .a0 ∉ passedInside.map.phaseWait := by
  decide +kernel

theorem witness_RunsWaitForRecordsPlacesAndCheckpoints_behind :
    let s := withMap (fun m => { m with freeCount := 2 }) ((placingA [1] .placing).modPlacer .a0 fun x => { x with queue := [1, 2] })
    s.wantsRun .a0 = true ∧ s.recordsCover .a0 = false ∧ (s.placer .a0).queue = [] ++ 1 :: [2]
      ∧ ((s.plannedRun .a0).getLast?.map fun x => x.number) = some 1 := by decide +kernel

/-- Band 0 with the suspect window from `first` to offset 5, and slot 1 HELD at offset 1. -/
def suspected (first : Nat) : State :=
  let x : Slot := { hostSlot 1 5 .held with place := some { band := 0, offset := 1, track := 0 } }
  ((withStaging (fun g => { g with slots := [x] }) live0).putBand 0
    { emptyBand with state := .opened, owner := some .a0, wp := 8, done := 8, suspect := some (first, 5) }).modPlacer .a0 fun y =>
      { y with band := some 0, retention := [1] }

theorem test_verify_runs :
    let t := (suspected 0).startVerify 0 true
    (t.media.queue.map fun op => (op.place, op.count, op.slots))
        = [(.band 0 0, 4, [none, some 1, none, none]), (.band 0 4, 2, [none, none])]
      ∧ (t.seq.outstanding, t.seq.verifies.map fun v => v.remaining) = (2, [2]) := by decide +kernel

theorem witness_VerifiesReadTheirTracksAndReplaceOrRetire_start :
    let s := suspected 0
    ((s.band 0).map fun r => (r.suspect, r.owner)) = some (some (0, 5), some .a0) ∧ s.seq.verifies = []
      ∧ 0 < (s.shape 0).track ∧ ((suspected 5).band 0).map (fun r => r.suspect) = some (some (5, 5))
      ∧ s.media.queue.length + (if s.seq.current.isSome then 1 else 0) + s.media.entryWait.length + 2 ≤ Config.queueLimit
      ∧ verify0 ∈ (s.modSeq fun q => { q with verifies := [verify0] }).seq.verifies ∧ verify0.band = 0 := by decide +kernel

theorem witness_WriteFaultSkipsAndVerifies_verify :
    let s := transferring .writeRun .data
    (∀ v ∈ s.seq.verifies, v.band ≠ 0) ∧ 0 < (s.shape 0).track
      ∧ ((s.runOf (runOp .writeRun)).map fun x => decide (0 < x.2.count)) = some true := by decide +kernel

theorem witness_ShockInputMaskWindowHoldAndQuiet_verify :
    let s := quietState true false
    ((s.band 0).map fun r => r.suspect) = some (some (0, 3)) ∧ 0 < (s.shape 0).track ∧ ∀ v ∈ s.seq.verifies, v.band ≠ 0 := by
  decide +kernel

theorem witness_CleanerReadsAreTaken_not_gathered :
    1 ∉ ((unreadable .cleaning .cleaning true).placer .cleaner).queue := by decide +kernel

/-! ### Witnesses: what a dropped WRITE leaves -/

/-- The waiting WRITE with a pinned block, a slot that fills, and a slot of another command. -/
def dropping : State :=
  withStaging (fun g => { g with slots := [
      { hostSlot 1 5 .gathered with command := some (.a, 0) }, { hostSlot 2 6 .gathered with command := some (.a, 0), pins := 1 },
      { hostSlot 3 7 .filling with command := some (.a, 0) }, { hostSlot 4 8 .filling with command := some (.b, 0) }] })
    (waitingWrite true false)

theorem test_no_space_drops_the_waiting_blocks :
    let t := after (.placementWaitExpiry .a0) dropping
    (t.staging.slots.map fun x => (x.number, x.releaseDue)) = [(2, true), (4, false)] ∧ (t.placer .a0).queue = []
      ∧ t.staging.index = [] ∧ ((t.port .a).list.map fun c => c.status.map fun d => d.status) = [some .noSpace] := by
  decide +kernel

theorem witness_BandGrantsAndPlacerTimers_drops : dropping.SlotsInOrder ∧ dropping.headingWrites .a0 = [(.a, 0)]
    ∧ (dropping.placer .a0).bandWait = true
    ∧ (dropping.staging.slots.map fun x => (x.command, x.state)) =
      [(some (.a, 0), .gathered), (some (.a, 0), .gathered), (some (.a, 0), .filling), (some (.b, 0), .filling)] := by
  unfold State.SlotsInOrder; decide +kernel

/-! ### Witnesses: the Cleaner's mode and room, and what a run needs -/

/-- A number of EMPTY bands, a wait list, and a retired list. -/
def cleanerAt (empty : Nat) (wait : List Stream) (retired : List (Nat × RetiredMark)) : State :=
  { live0 with bands := { live0.bands with emptyCount := empty, openWait := wait }
               cleaner := { live0.cleaner with retired := retired } }

/-- tiny has LOW 3 and CRIT 1. -/
theorem test_cleaner_modes :
    (cleanerAt 1 [] []).modeNow = .urgent ∧ (cleanerAt 2 [] []).modeNow = .background ∧ (cleanerAt 3 [] []).modeNow = .background
      ∧ (cleanerAt 4 [] []).modeNow = .idle ∧ (cleanerAt 4 [] [(2, .awaiting)]).modeNow = .background
      ∧ (cleanerAt 4 [] [(2, .attempted)]).modeNow = .idle ∧ (cleanerAt 2 [.a0] []).modeNow = .urgent
      ∧ (cleanerAt 3 [.a0] []).modeNow = .background := by decide +kernel

/-- The smallest capacity is 7 and the largest track 4 blocks. -/
theorem test_cleaner_room :
    let opened (wp : Nat) (s : State) : State := (s.putBand 0 { emptyBand with state := .opened, owner := some .cleaner, wp := wp })
      |>.modPlacer .cleaner fun x => { x with band := some 0 }
    (cleanerAt 0 [] []).cleanerRoom = 0 ∧ (cleanerAt 2 [] []).cleanerRoom = 6 ∧ (cleanerAt 5 [] []).cleanerRoom = 6
      ∧ (opened 3 (cleanerAt 2 [] [])).cleanerRoom = 3 ∧ (opened 8 (cleanerAt 3 [] [])).cleanerRoom = 6 := by decide +kernel

theorem witness_TheCleanerHasItsModeAndRoom :
    (cleanerAt 1 [] []).geo.inForce = some tiny ∧ tiny.zones = [⟨4, 1, 8, 6⟩]
      ∧ tiny.tracks * 4 - (tiny.tracks * 4 + 255) / 256 = 7 ∧ (cleanerAt 1 [] []).openBand .cleaner = none := by decide +kernel

/-- Two blocks whose LBNs follow one another, one behind a gap, and a RELOCATED one. -/
theorem test_groups_of_a_run :
    let run := [hostSlot 1 5 .gathered, hostSlot 2 6 .gathered, hostSlot 3 8 .gathered, { relocated1 with lbn := 9 }]
    countGroups run = 3 ∧ countGroups (run.take 2) = 1 ∧ countGroups (run.take 3) = 2 := by decide +kernel

theorem test_records_places_and_interior_slots :
    (noRecords true).recordsCover .a0 = false ∧ (withMap (fun m => { m with freeCount := 3 }) (noRecords true)).recordsCover .a0 = true
      ∧ acceptWaits.interior 1 = true ∧ acceptWaits.interior 0 = false ∧ acceptWaits.interior 2 = false
      ∧ acceptWaits.trimNeed { port := .a, cmd := 0, first := 6, last := 9 } = 3
      ∧ acceptWaits.trimNeed { port := .a, cmd := 0, first := 7, last := 9 } = 1
      ∧ (trimming 10 []).trimPlaces = true
      ∧ (withMap (fun m => { m with pendingApply := List.replicate 63 [] }) (noEntries (gathered 0))).map.entryFree (.placer .a0) = true
      ∧ (withMap (fun m => { m with pendingApply := List.replicate 64 [] }) (noEntries (gathered 0))).map.entryFree (.placer .a0)
        = false := by decide +kernel

/-! ### Witnesses: the bands step of the rebuild -/

/-- Band 1 CLEANING, and the records of a journal. -/
def stepBands (kinds : List JournalKind) : State :=
  (live0.putBand 1 { emptyBand with state := .cleaning, live := 2, wp := 8, done := 8, closeNumber := some 7 }).modRecovery fun r =>
    { r with journal := kinds.map fun k => { record := { sequence := 0, kind := k }, written := false } }

/-- Bands 2, 3 and 4 as candidates: with its footer, with data up to offset 1, and with none. -/
def threeCandidates : List Candidate :=
  [{ candidate2 with footerUsed := true, last := some 6 }, { candidate2 with band := 3, last := some 1 }, { candidate2 with band := 4 }]

/-- With a block live in each of bands 1 to 3. -/
def stepLive (kinds : List JournalKind) : State :=
  withMap (fun m => { m with table := [⟨5, 1, 1, 0⟩, ⟨6, 1, 2, 0⟩, ⟨7, 1, 3, 0⟩] }) (stepBands kinds)

theorem test_bands_step :
    let t := (stepLive []).setBands threeCandidates
    (t.bands.records.map fun r => (r.state, r.wp, r.footer, r.closeNumber)).drop 1
        = [(.full, 8, false, some 7), (.full, 8, true, some 0), (.full, 4, false, some 1), (.empty, 0, false, none),
           (.empty, 0, false, none)]
      ∧ t.bands.closeCounter = 2 ∧ t.bands.emptyCount = 3 := by decide +kernel

/-- A RETIRE record of the last candidate takes the close counter back by 1; one of the candidate before it does not. -/
theorem test_bands_step_retires :
    let t := (stepLive [.retire 3]).setBands threeCandidates
    ((t.band 3).map fun r => (r.state, r.wp, r.closeNumber)) = some (.retired, 4, none) ∧ t.bands.closeCounter = 1
      ∧ ((stepLive [.retire 2]).setBands threeCandidates).bands.closeCounter = 2
      ∧ ((stepBands []).setBands threeCandidates).bands.emptyCount = 6 := by decide +kernel

theorem witness_TheBandsStepSetsEveryBand :
    let s := stepLive [.retire 3]
    threeCandidates.Pairwise (fun c d => c.band < d.band) ∧ threeCandidates.length < 2 ^ 32
      ∧ (∀ c ∈ threeCandidates, (s.band c.band).isSome) ∧ (s.band 1).map (fun r => r.state) = some .cleaning
      ∧ ((threeCandidates.filter fun c => c.last.isSome).map fun c => c.band) = [2, 3] := by decide +kernel

/-! ### Witnesses: what asks for a checkpoint or a journal write -/

/-- The DURABLE TRIM, without and with a journal write in progress. -/
def durableTrim (active : Bool) : State :=
  (withMap (fun m => { m with freeCount := 10, trims := [{ port := .a, cmd := 0, first := 5, last := 6 }] })
    (oneCmd (cmd 0 3 { rec0 with flags := 0xff, count := 2, lbn := 5 } (.trim false)))).modRecovery fun r =>
      { r with journalWrite := { r.journalWrite with active := active } }

theorem test_durable_trim_asks_for_a_journal_write :
    let t := (after (.trimApply .a 0) (durableTrim false)).recovery.journalWrite
    let u := (after (.trimApply .a 0) (durableTrim true)).recovery.journalWrite
    (t.active, t.taken, t.requesters, t.further) = (true, [0], [.command .a 0], false)
      ∧ (u.active, u.further, u.furtherRequesters) = (true, true, [.command .a 0]) := by decide +kernel

theorem witness_TrimsAreAppliedOrWait_durable :
    let s := durableTrim true
    (s.findTrim .a 0).isSome = true ∧ s.trimPlaces = true ∧ s.map.entryFree (.trim .a 0) = true ∧ s.map.writePhase = false
      ∧ ((s.command .a 0).map fun c => (durableBit c.record.flags, c.status)) = some (true, none)
      ∧ (durableTrim false).recovery.journalWrite.active = false ∧ s.recovery.journalWrite.active = true := by decide +kernel

/-- The footer write in flight at a close count and in a checkpoint's state. -/
def closesAt (count : Nat) (st : CheckpointState) : State :=
  (transferring .footerWrite .footer).modRecovery fun r =>
    { r with closeCount := count, checkpoint := { r.checkpoint with state := st } }

theorem test_close_256_requests_a_checkpoint :
    let t (n : Nat) (st : CheckpointState) : Recovery := (after .writeTransferGood (closesAt n st)).recovery
    ((t 254 .idle).closeCount, (t 254 .idle).checkpoint.state) = (255, .idle) ∧ (t 255 .idle).checkpoint.state ≠ .idle
      ∧ (t 255 .quiescing).due = false ∧ (t 255 .writing).due = true ∧ (t 255 .finishing).due = true := by decide +kernel

/-- The journal with one place left. -/
def lastPlace (st : CheckpointState) : State :=
  live0.modRecovery fun r => { r with
    journal := List.replicate 65535 { record := { sequence := 0, kind := .retire 3 }, written := true }
    checkpoint := { r.checkpoint with state := st } }

theorem witness_RecordsAreAppendedAndJournalWritesEnd_last_place :
    (lastPlace .writing).recovery.journal.length + 1 = 65536 ∧ (lastPlace .idle).recovery.checkpoint.state = .idle
      ∧ live0.recovery.journal.length + 1 < 65536 := by
  refine ⟨?_, rfl, by decide⟩
  show (List.replicate 65535 _).length + 1 = 65536
  rw [List.length_replicate]

theorem test_failed_checkpoint_starts_the_one_due :
    let t := (after (.writeFault 0) ((imageWrite 1 1 2).modRecovery fun r => { r with due := true, next := [(.b, 7)] })).recovery
    t.checkpoint.state ≠ .idle ∧ t.joined = [(.b, 7)] ∧ t.next = [] ∧ t.due = false := by decide +kernel

theorem witness_CheckpointFixesWritesAndEnds_due :
    let s := (imageWrite 1 1 2).modRecovery fun r => { r with due := true }
    s.seq.state = .transferring ∧ 2 ≤ s.recovery.checkpoint.reissues ∧ s.recovery.due = true ∧ s.recovery.part = .ready := by
  decide +kernel

/-! ### The words that hosts read -/

theorem test_status_word : statusWordOf { status := .noSpace, blocks := 3, result0 := 0, result1 := 0 } = 0x0000000300000006 := by
  decide +kernel

theorem test_report_entry :
    let r : BandRecord := { fullBand 0x1234 0x89ABCDEF with wp := 38400, done := 38000, footer := true, faults := 2 }
    let b := bandEntriesBlock 0 [(1, emptyBand), (0x01020304, r)]
    (countFrom 32 25).map (blockRead b) = [4, 3, 2, 1, 2, 3, 2, 0, 0, 0x96, 0, 0, 0x70, 0x94, 0, 0, 0x34, 0x12, 0, 0, 0xEF, 0xCD, 0xAB, 0x89, 0]
      ∧ blockRead b 64 = 0 := by decide +kernel

/-! ### Witnesses: a TRIM short of records -/

/-- Port A with a number of records free, where TRIM is to be taken. -/
def trimPort (free : Nat) : State := withMap (fun m => { m with freeCount := free }) (portA walking)
def trimTwo : Instr := .trim .a { rec0 with count := 2, lbn := 5 }

/-- A TRIM short of records waits from its taking on, and its 5 s end it MAP EXHAUSTED. -/
theorem test_trim_short_of_records_waits_from_its_taking :
    let t := after trimTwo (trimPort 0)
    t.map.recordWait = [.trim .a 0] ∧ (after trimTwo (trimPort 5)).map.recordWait = []
      ∧ ((after (.trimMapWaitExpiry .a 0) t).port .a).list.map (fun c => c.status.map fun d => (d.status, d.blocks))
        = [some (.mapExhausted, 0)] := by decide +kernel

/-- It joins the list whatever else it lacks, here a run number. -/
theorem test_trim_short_of_records_and_numbers :
    (after (.trimApply .a 0) (withMap (fun m => { m with runCounter := 281474976710656 }) (trimming 0 []))).map.recordWait
      = [.trim .a 0] := by decide +kernel

theorem witness_WriteTrimAndFlushBegin_trim :
    let c : CommandRecord := { rec0 with count := 2, lbn := 5 }
    let s := noEntries (trimPort 5)
    let t : TrimRequest := { port := .a, cmd := 0, first := 5, last := 6 }
    takingAt ((trimPort 0).port .a) = some 0x1000 ∧ formatOk 3 (trimPort 0).limits.1 c = true
      ∧ rangeExceeded 3 (trimPort 0).limits.1 (trimPort 0).limits.2 c = false ∧ ((trimPort 0).port .a).nextId = 0
      ∧ (trimPort 0).map.available < (trimPort 0).trimNeed t ∧ .trim .a 0 ∉ (trimPort 0).map.recordWait
      ∧ ¬s.map.available < s.trimNeed t ∧ s.trimPlaces = true ∧ s.map.entryFree (.trim .a 0) = false
      ∧ .trim .a 0 ∉ s.map.phaseWait := by decide +kernel

/-- A WRITE whose stream's account is full or has an older request, and a FLUSH with a record unwritten or a write under way. -/
theorem witness_WriteTrimAndFlushBegin_full :
    let k := live0.staging.streamAccount (writeStream .a (recN 2 18))
    let s := withStaging (fun g => { g with charges := g.charges.set k 6 }) (portA walking)
    let u := withStaging (fun g => { g with requests := g.requests.set k [.fill .a 0 .a0 5] }) (portA walking)
    let v := (portA walking).modRecovery fun r => { r with journal := [unwritten0], nextSequence := 1 }
    takingAt (s.port .a) = some 0x1000 ∧ s.recovery.part = .ready ∧ s.streamValid .a (recN 2 18) = true
      ∧ k = .portA ∧ accountLimit s.staging.size k ≤ s.staging.charges.get k
      ∧ u.staging.charges.get k < accountLimit u.staging.size k ∧ u.staging.requests.get k ≠ []
      ∧ v.recovery.unwritten ≠ [] ∧ v.recovery.journalWrite.active = false
      ∧ (journalling [0] 0 false).recovery.journalWrite.active = true := by decide +kernel

/-! ### Witnesses: the Cleaner's scan reads -/

/-- RELOCATING with band 0 the victim, a cursor, ranges left to the tags, and a number of reads outstanding. -/
def scanning (kind : ScanKind) (cursor : Nat) (ranges : List (Nat × Nat)) (outstanding : Nat) : State :=
  (live0.putBand 0 { emptyBand with state := .cleaning, wp := 8, done := 8, live := 1 }).modCleaner fun c => { c with
    state := .relocating, victim := some (0, .cleaning), outstanding := outstanding
    scan := some { kind := kind, cursor := cursor, ranges := ranges } }

/-- The footer is block 7 of the band; tags are read to the end of a track of 4 blocks, and no further than a range goes. -/
theorem test_scan_reads :
    let reads (s : State) : List (OpPlace × Nat) := s.cleanerStep.media.queue.map fun op => (op.place, op.count)
    reads (scanning .footer 0 [] 0) = [(.band 0 7, 1)] ∧ reads (scanning .tags 2 [] 0) = [(.band 0 2, 2)]
      ∧ reads (scanning .footer 7 [(0, 7)] 3) = [(.band 0 0, 4)] ∧ reads (scanning .footer 7 [(4, 7)] 0) = [(.band 0 4, 3)]
      ∧ reads (scanning .tags 2 [] 4) = [] ∧ reads (scanning .tags 8 [] 1) = [] := by decide +kernel

theorem test_scan_read_counts :
    let t := (scanning .footer 0 [] 0).cleanerStep
    (t.cleaner.outstanding, t.cleaner.scanRead, (t.band 0).map fun r => r.refs) = (1, true, some 1) := by decide +kernel

theorem witness_TheCleanerScansItsVictim :
    let s := scanning .footer 0 [] 0
    s.cleaner.victim = some (0, .cleaning) ∧ (s.band 0).isSome = true ∧ s.recovery.part = .ready ∧ s.cleaner.state = .relocating
      ∧ s.cleaner.candidates = [] ∧ s.cleaner.scan = some { kind := .footer, cursor := 0, ranges := [] }
      ∧ s.cleaner.scanRead = false ∧ s.cleaner.outstanding < 4 ∧ s.queueRoom = true ∧ 0 < (s.shape 0).capacity
      ∧ ((s.band 0).map fun r => decide (2 < r.done ∧ r.done ≤ 8)) = some true ∧ (s.shape 0).capacity ≤ 7
      ∧ 0 < (scanning .tags 8 [] 1).cleaner.outstanding ∧ 4 ≤ (scanning .tags 2 [] 4).cleaner.outstanding := by decide +kernel

/-- The tag scan read of offset 0 of the victim in flight for the range 0 to `hi`, one of two that are left to the tags. -/
def rangeRead (hi : Nat) : State :=
  (cleanerReads true .footer 0 1).modCleaner fun c => { c with scan := some { kind := .footer, cursor := 7, ranges := [(0, hi), (4, 7)] } }

theorem test_ranges_come_before_the_footer :
    let t (hi : Nat) := after (.readTransferGood [hostBlock 5 1]) (rangeRead hi)
    (t 1).cleaner.scan = some { kind := .footer, cursor := 7, ranges := [(4, 7)] }
      ∧ ((t 3).cleaner.scan.map fun v => v.ranges) = some [(1, 3), (4, 7)] := by decide +kernel

theorem witness_CleanerReadsAreTaken_ranges :
    let s := rangeRead 3
    (s.cleaner.scan.map fun v => v.ranges) = some [(0, 3), (4, 7)] ∧ (s.seq.current.map fun f => (f.op.scan, opFirst f.op, f.op.count))
        = some (true, 0, 1) ∧ s.cleaner.victim = some (0, .cleaning) ∧ (0 : Nat) < 3
      ∧ (s.seq.current.map fun f => decide ([some (hostBlock 5 1)].length = f.op.count)) = some true := by decide +kernel

/-! ### Witnesses: the end of a checkpoint and of the rebuild -/

/-- The header write with record 0 unwritten behind the watermark, and a RETIRE record held apart. -/
def finishing0 (active : Bool) (held : List Nat) : State :=
  headerWrite.modRecovery fun r => { r with
    checkpoint := { r.checkpoint with unreleased := 0 }, heldRetires := held, nextSequence := 1
    journalWrite := { r.journalWrite with active := active } }

theorem test_the_finish_asks_for_a_journal_write :
    let t := (after .writeTransferGood (finishing0 false [4])).recovery
    let u := (after .writeTransferGood (finishing0 true [])).recovery
    t.checkpoint.state = .finishing ∧ t.journalWrite.taken = [0, 1] ∧ t.journalWrite.requesters = [.checkpoint]
      ∧ (t.journal.map fun e => e.record.kind) = [.retire 3, .retire 4] ∧ t.heldRetires = [] ∧ t.joined = [(.a, 0)]
      ∧ u.journalWrite.furtherRequesters = [.checkpoint] ∧ u.checkpoint.state = .finishing := by decide +kernel

theorem witness_TheFinishWaitsAndTheRebuildEnds :
    let s := finishing0 false [4]
    s.seq.state = .transferring ∧ (s.seq.current.map fun f => (f.op.kind, f.op.task)) = some (.systemWrite, .checkpointWrite)
      ∧ s.recovery.part ≠ .faulted ∧ s.geo.inForce = some tiny ∧ imageBlocks tiny ≤ s.recovery.checkpoint.cursor
      ∧ (s.recovery.journal.any fun e => !e.written && decide (s.recovery.checkpoint.unreleased ≤ e.record.sequence)) = true
      ∧ s.recovery.journalWrite.active = false ∧ (finishing0 true []).recovery.journalWrite.active = true
      ∧ s.media.queue.length + s.media.entryWait.length < Config.queueLimit := by decide +kernel

/-- A journal write in flight in FINISHING, its third fault to come, for a CHECKPOINT of Port A, asked for by the finish or by none. -/
def waitsForJournal (asked : Bool) (part : PartState) : State :=
  let s := oneCmd { cmd 0 4 rec0 .none with opcode := 7, work := .checkpoint }
  (flying sysOp .transferring (s.putBand 2 { emptyBand with state := .retired, live := 1, wp := 4, done := 4 })).modRecovery fun r =>
    { r with
      part := part, joined := [(.a, 0)], rebuild := if part = .rebuilding then some Rebuild.start else none
      journal := [{ record := { sequence := 0, kind := .retire 3 }, written := false }]
      checkpoint := { r.checkpoint with state := .finishing, finishUpTo := 1, watermark := 9 }
      journalWrite := { r.journalWrite with active := true, taken := if asked then [0] else [], blocks := [0], reissues := 2
                                            requesters := if asked then [.checkpoint] else [] } }

theorem test_the_journal_write_ends_the_checkpoint :
    let ends (i : Instr) (asked : Bool) :=
      (after i (waitsForJournal asked .ready)).recovery.checkpoint.state
    ends .writeTransferGood true = .idle ∧ ends (.writeFault 0) true = .idle ∧ ends .writeTransferGood false = .finishing
      ∧ ((after (.writeFault 0) (waitsForJournal true .ready)).port .a).list.map (fun c => c.status.map fun d => (d.status, d.result0))
        = [some (.done, 9)] := by decide +kernel

theorem witness_TheFinishWaitsAndTheRebuildEnds_journal :
    let s := waitsForJournal true .ready
    let u := waitsForJournal false .ready
    s.seq.state = .transferring ∧ (s.seq.current.map fun f => (f.op.kind, f.op.task)) = some (.systemWrite, .journalWrite)
      ∧ s.recovery.part = .ready ∧ s.recovery.checkpoint.state = .finishing ∧ s.recovery.journalWrite.blocks = [0]
      ∧ 2 ≤ s.recovery.journalWrite.reissues ∧ .checkpoint ∈ s.recovery.journalWrite.requesters
      ∧ .checkpoint ∉ u.recovery.journalWrite.requesters ∧ ¬u.recovery.checkpoint.finishUpTo ≤ 0 ∧ s.recovery.due = false
      ∧ (.a, 0) ∈ s.recovery.joined ∧ ((s.command .a 0).map fun c => c.work) = some .checkpoint
      ∧ (journalling [0] 2 true).recovery.journalWrite.requesters = [.command .a 0] := by decide +kernel

/-- The last write of the rebuild's checkpoint in flight, with commands of Port A held and band 2 RETIRED with a live block. -/
def rebuildEnds (held : List Command) : State :=
  let s := (waitsForJournal true .rebuilding).setPort .a { walking with list := held, nextId := 9 }
  (flying (systemWriteOp .checkpointWrite (imageBase tiny .first) []) .transferring s).modRecovery fun r => { r with
    joined := [], journal := [], checkpoint := { r.checkpoint with state := .writing, cursor := imageBlocks tiny, reissues := 2 } }
def heldCmd (id k : Nat) (c : CommandRecord) : Command := { cmd id k c .none with held := true }

/-- Put to the tests in READY, a held CONFIG WRITE is refused, a READ past the user blocks is a RANGE, and a TRIM is handed over. -/
theorem test_the_rebuild_ends_in_ready :
    let s := rebuildEnds [heldCmd 1 9 rec0, heldCmd 2 1 (recN 2 19), heldCmd 3 3 { rec0 with count := 2, lbn := 5 }]
    let t := (s.seqIdle.systemWriteDone (systemWriteOp .checkpointWrite 3 []) .good)
    let u := after (.writeFault 0) s
    t.recovery.part = .ready ∧ t.cleaner.retired = [(2, .awaiting)] ∧ (t.map.trims.map fun x => x.cmd) = [3]
      ∧ ((t.port .a).list.map fun c => (c.held, c.status.map fun d => d.status))
        = [(false, some .refusedState), (false, some .range), (false, none)]
      ∧ u.recovery.part = .ready ∧ (after .writeTransferGood (waitsForJournal true .rebuilding)).recovery.part = .ready := by
  decide +kernel

theorem witness_TheFinishWaitsAndTheRebuildEnds_rebuild :
    let s := rebuildEnds [heldCmd 1 9 rec0]
    s.seq.state = .transferring ∧ s.recovery.part = .rebuilding ∧ s.geo.inForce = some tiny
      ∧ (s.seq.current.map fun f => (f.op.kind, f.op.task)) = some (.systemWrite, .checkpointWrite)
      ∧ imageBlocks tiny ≤ s.recovery.checkpoint.cursor ∧ s.recovery.heldRetires = [] ∧ s.recovery.journal = []
      ∧ 2 ≤ s.recovery.checkpoint.reissues ∧ (s.port .a).list = [heldCmd 1 9 rec0] ∧ (.a, 1) ∉ s.recovery.joined
      ∧ (s.port .b).list = [] ∧ .checkpoint ∈ (waitsForJournal true .rebuilding).recovery.journalWrite.requesters
      ∧ ((s.band 2).map fun r => (r.state, decide (0 < r.live))) = some (.retired, true) := by decide +kernel

/-! ### Witnesses: later start tags, and the records of a journal block -/

/-- The tag of a track of band 0, which is FULL, in flight with its block retried 4 times; tiny has two tracks a band. -/
def startTag (t : Nat) : State :=
  ((rebuilding (tagOp 0 (4 * t)) { Rebuild.start with step := .startTag 0 t, header := some (header0 3 0) }).putBand 0
    { emptyBand with state := .full, wp := 8, done := 8, live := 1 }).modSeq fun q => { q with
      current := q.current.map fun f => { f with retry := some (0, 4) } }

/-- A row leaves the rebuild at a step, with candidates of these floors. -/
def tagged (i : Instr) (t : Nat) (step : RebuildStep) (floors : List Nat) : Bool :=
  (after i (startTag t)).recovery.rebuild.any fun r => decide (r.step = step) && decide (r.todo.map (fun c => c.floor) = floors)

/-- The watermark is 7. -/
theorem test_start_tags :
    tagged (.readError []) 0 (.startTag 0 1) [] = true ∧ tagged (.readError []) 1 (.startTag 1 0) [] = true
      ∧ tagged (.readTransferGood [hostBlock 5 8]) 1 (.startTag 1 0) [8] = true
      ∧ tagged (.readTransferGood [hostBlock 5 6]) 1 (.startTag 1 0) [] = true := by decide +kernel

theorem witness_TheRebuildReadsTagsAndEnds_later_tracks :
    let s := startTag 1
    (s.recovery.rebuild.map fun r => r.step) = some (.startTag 0 1) ∧ ((s.band 0).map fun r => r.state) = some .full
      ∧ (0 + 1) * (s.shape 0).track < (s.shape 0).capacity ∧ (s.shape 0).capacity ≤ (1 + 1) * (s.shape 0).track
      ∧ s.media.queue.length + s.media.entryWait.length < Config.queueLimit ∧ ((s.band 1).map fun r => r.state) = some .empty
      ∧ (s.seq.current.map fun f => decide (f.op.count = 1 ∧ 4 ≤ (f.deliver []).retries)) = some true := by decide +kernel

/-- The block of sequence 126 gives 126 and 127, and then the next block is read. -/
theorem test_journal_records_in_order :
    let rs : List JournalRecord := [{ sequence := 127, kind := .retire 1 }, { sequence := 126, kind := .trim 5 2 9 }]
    let s := journalReads.modRecovery fun r => { r with nextSequence := 126 }
    let t := after (.readTransferGood [{ content := .system (.journal rs), tag := none }]) s
    (t.recovery.journal.map fun e => (e.record.sequence, e.record.kind)) = [(126, .trim 5 2 9), (127, .retire 1)]
      ∧ (t.media.queue.map fun op => op.place) = [.system (journalBase tiny + 1)] := by decide +kernel

end Sys2Proof.Tests
end

/-! PROOF. O16: what a ready report stores, and how a CONFIG CLOSE that waits for one is decided (R12, R16, R93, R94). -/

namespace Sys2Proof.Machine

/-! ### The writes of a CONFIG CLOSE (R15, R169) -/

/-- What the writes of a CONFIG CLOSE leave alone: the geometry, the sequencer, the part state, and that the close is under
way. -/
structure CloseFrame (s t : State) : Prop where
  geo : t.geo = s.geo
  seq : t.seq = s.seq
  part : t.recovery.part = s.recovery.part
  close : t.recovery.close.isSome = s.recovery.close.isSome

theorem Frame.closeFrame {s t : State} (h : Frame s t) : CloseFrame s t := ⟨h.geo, h.seq, h.part, by rw [h.close]⟩

theorem State.issueCloseWrite_closeFrame (s : State) : CloseFrame s s.issueCloseWrite := by
  have image (op : MediaOp) (w : CloseWork) (h : s.recovery.close.isSome) : CloseFrame s
      { s.submit op with recovery := { (s.submit op).recovery with close := some w } } :=
    have k := s.submit_frame op
    ⟨k.geo, k.seq, k.part, h.symm⟩
  unfold State.issueCloseWrite
  split
  · exact (Frame.refl s).closeFrame
  · rename_i w hw
    have hs : s.recovery.close.isSome := by rw [hw]; rfl
    dsimp only
    split
    case h_1 => exact (Frame.refl s).closeFrame
    case h_2 =>
      split
      · exact image _ _ hs
      · exact image _ _ hs
    case h_3 => exact (s.submit_frame _).closeFrame
    case h_4 => exact (s.submit_frame _).closeFrame

theorem State.closeTo_closeFrame (s : State) (w : CloseWork) (step : CloseStep) (h : s.recovery.close.isSome) :
    CloseFrame s (s.closeTo w step) :=
  have k := State.issueCloseWrite_closeFrame
    { s with recovery := { s.recovery with close := some { w with step := step, reissues := 0 } } }
  ⟨k.geo, k.seq, k.part, k.close.trans h.symm⟩

/-! ### A command that finishes (R151), and a CONFIG CLOSE that fails (R14, R16) -/

/-- A RUNNING command that finishes stands in its port's list under its number, with its completion. -/
theorem State.finish_listed {s : State} {p : Port} {id : Nat} {c : Command} (h : s.command p id = some c) (d : Completion) :
    ∃ x ∈ ((s.finish p id d).port p).list, x.id = id ∧ x.status = some d := by
  have mem : c ∈ (s.port p).list := List.mem_of_find?_eq_some h
  have running : c.id = id ∧ c.status = none := by simpa using List.find?_some h
  refine ⟨finishedCommand d c, ?_, running.1, rfl⟩
  simp only [State.finish, State.modCommand, State.modPort_port]
  exact List.mem_map.2 ⟨c, mem, if_pos running⟩

theorem otherPort_ne (p : Port) : otherPort p ≠ p := by cases p <;> decide

@[simp] theorem State.failClose_geo (s : State) (p : Port) (id : Nat) (d : Completion) :
    (s.failClose p id d).geo = { s.geo with status := .editable } := rfl
@[simp] theorem State.failClose_seq (s : State) (p : Port) (id : Nat) (d : Completion) : (s.failClose p id d).seq = s.seq := rfl
@[simp] theorem State.failClose_map (s : State) (p : Port) (id : Nat) (d : Completion) : (s.failClose p id d).map = s.map := rfl
@[simp] theorem State.failClose_media (s : State) (p : Port) (id : Nat) (d : Completion) :
    (s.failClose p id d).media = s.media := rfl
@[simp] theorem State.failClose_recovery (s : State) (p : Port) (id : Nat) (d : Completion) :
    (s.failClose p id d).recovery = { s.recovery with close := none } := rfl

theorem State.failClose_listed {s : State} {p : Port} {id : Nat} {c : Command} (h : s.command p id = some c) (d : Completion) :
    ∃ x ∈ ((s.failClose p id d).port p).list, x.id = id ∧ x.status = some d := State.finish_listed h d

theorem State.failClose_port_other (s : State) (p : Port) (id : Nat) (d : Completion) :
    (s.failClose p id d).port (otherPort p) = s.port (otherPort p) := State.modPort_port_other _ (otherPort_ne p) _

/-- All that check 21 can do to a CONFIG CLOSE under way: its writes begin with the draft's status as it was, or it ends with the
draft EDITABLE. The rest of the geometry, the sequencer and the part state stay. -/
theorem State.closeCheck21_decides (s : State) (w : CloseWork) (n : Nat) (h : s.recovery.close.isSome) :
    ∃ status, (s.closeCheck21 w n).geo = { s.geo with status := status } ∧ (s.closeCheck21 w n).seq = s.seq
      ∧ (s.closeCheck21 w n).recovery.part = s.recovery.part
      ∧ if lastCylinder w.record < n then status = s.geo.status ∧ (s.closeCheck21 w n).recovery.close.isSome
        else status = .editable ∧ (s.closeCheck21 w n).recovery.close = none := by
  unfold State.closeCheck21 check21
  by_cases hn : lastCylinder w.record < n
  · have k := s.closeTo_closeFrame w (.image 1 0) h
    rw [if_pos (decide_eq_true hn)]
    exact ⟨_, k.geo, k.seq, k.part, by rw [if_pos hn]; exact ⟨rfl, k.close.trans h⟩⟩
  · rw [if_neg (by simpa using hn)]
    exact ⟨_, State.failClose_geo .., State.failClose_seq .., rfl, by rw [if_neg hn]; exact ⟨rfl, rfl⟩⟩

/-! ### The ready report (R12, R93, R94) -/

/-- The sequencer after a ready report: an operation that waited for readiness seeks again (R94). -/
def reportReady (q : Sequencer) : Sequencer :=
  match q.state, q.current with
  | .waitingReady, some f =>
    { gainReadiness q with state := .positioning, current := some f, sent := some (.seek f.cylinder f.head) }
  | _, _ => gainReadiness q

/-- The state after a ready report, but for a CONFIG CLOSE that it decides. -/
def State.reported (s : State) (n : Nat) : State :=
  { s with geo := { s.geo with cylinders := some n }, seq := reportReady s.seq }

theorem reportReady_mask (q : Sequencer) :
    (reportReady q).ready = true ∧ (reportReady q).shockMask = true ∧ (reportReady q).shockFilter = false := by
  unfold reportReady
  split
  · exact ⟨rfl, rfl, rfl⟩
  · exact ⟨rfl, rfl, rfl⟩

theorem reportReady_waiting {q : Sequencer} {f : InFlight} (h : q.state = .waitingReady) (hf : q.current = some f) :
    (reportReady q).state = .positioning ∧ (reportReady q).current = some f
      ∧ (reportReady q).sent = some (.seek f.cylinder f.head) := by
  simp [reportReady, h, hf]

theorem execReadyReport_eq (s : State) (n : Nat) : execReadyReport n s =
    match s.recovery.close with
    | none => .next (s.reported n)
    | some w => if w.step = .awaitReady then .next ((s.reported n).closeCheck21 w n) else .next (s.reported n) := by
  unfold execReadyReport State.reported reportReady gainReadiness
  cases s.seq.state
  case waitingReady => cases s.seq.current <;> rfl
  all_goals rfl

/-- A ready report while no CONFIG CLOSE waits for one. -/
theorem exec_readyReport_of_not_awaiting {s : State} (n : Nat)
    (h : ∀ w, s.recovery.close = some w → w.step ≠ .awaitReady) : exec (.readyReport n) s = .next (s.reported n) := by
  refine (execReadyReport_eq s n).trans ?_
  split
  · rfl
  · exact if_neg (h _ ‹_›)

/-- A ready report while a CONFIG CLOSE waits for one (R16). -/
theorem exec_readyReport_of_awaiting {s : State} (n : Nat) {w : CloseWork} (h : s.recovery.close = some w)
    (hw : w.step = .awaitReady) : exec (.readyReport n) s = .next ((s.reported n).closeCheck21 w n) := by
  refine (execReadyReport_eq s n).trans ?_
  rw [h]
  exact if_pos hw

/-- The 30-s hold ends for a CONFIG CLOSE that waits for a ready report (R16). -/
theorem exec_configCloseHoldExpiry_of_awaiting {s : State} {w : CloseWork} (h : s.recovery.close = some w)
    (hw : w.step = .awaitReady) :
    exec .configCloseHoldExpiry s = .next (s.failClose w.port w.cmd (completed .notReady 0)) := by
  change execConfigCloseHoldExpiry s = _
  unfold execConfigCloseHoldExpiry
  rw [h]
  exact if_pos hw

/-- Settles O16. A ready report is `State.reported`, with check 21 after it where a CONFIG CLOSE waits; check 21 either leaves
the geometry alone or sets the draft EDITABLE. -/
theorem readyReportStoresTheCylinderCount : Obligations.ReadyReportStoresTheCylinderCount := by
  unfold Obligations.ReadyReportStoresTheCylinderCount
  refine ⟨fun s n => ?_, fun s w c h hw hc => ?_⟩
  · obtain ⟨ready, mask, filter⟩ := reportReady_mask s.seq
    by_cases waits : ∃ w, s.recovery.close = some w ∧ w.step = .awaitReady
    case neg =>
      have none_waits : ∀ w, s.recovery.close = some w → w.step ≠ .awaitReady := fun w h hw => waits ⟨w, h, hw⟩
      exact ⟨s.reported n, exec_readyReport_of_not_awaiting n none_waits, rfl, rfl, rfl, rfl, rfl, ready, mask, filter,
        fun _ => reportReady_waiting, fun _ => rfl, fun w h hw => absurd hw (none_waits w h)⟩
    case pos =>
      obtain ⟨w, h, hw⟩ := waits
      have under_way : (s.reported n).recovery.close.isSome := Option.isSome_of_eq_some h
      obtain ⟨status, geo, seq, part, decided⟩ := (s.reported n).closeCheck21_decides w n under_way
      refine ⟨_, exec_readyReport_of_awaiting n h hw, ?_⟩
      rw [geo, seq, part]
      refine ⟨rfl, rfl, rfl, rfl, rfl, ready, mask, filter, fun _ => reportReady_waiting,
        fun none_waits => absurd hw (none_waits w h), fun v hv _ => ?_⟩
      obtain rfl : w = v := Option.some.inj (h.symm.trans hv)
      exact decided
  · exact ⟨_, exec_configCloseHoldExpiry_of_awaiting h hw, State.failClose_geo .., State.failClose_recovery ..,
      State.failClose_listed hc _, s.failClose_port_other .., State.failClose_map .., State.failClose_media ..⟩

end Sys2Proof.Machine

/-! PROOF. O30: the Cleaner's scores of a band (R110). -/

namespace Sys2Proof.Machine

/-! ### Use, age and the two scores (R110) -/

theorem useOf_le {capacity : Nat} {r : BandRecord} (h : r.live < capacity) : useOf capacity r ≤ 999 :=
  Nat.le_of_lt_succ (Nat.div_lt_of_lt_mul (by omega : r.live * 1000 < capacity * 1000))

theorem ageOf_eq_of_closeNumber {r : BandRecord} {n : Word32} (counter : Word32) (h : r.closeNumber = some n) :
    ageOf counter r = min ((counter.toNat + 4294967296 - n.toNat) % 4294967296) 65535 := by
  have modular : (counter - n).toNat = (counter.toNat + 4294967296 - n.toNat) % 4294967296 := by bv_omega
  simp only [ageOf, h, Option.getD_some, modular, Config.ageLimit]

theorem ageOf_le (counter : Word32) (r : BandRecord) : ageOf counter r ≤ 65535 := Nat.min_le_right ..

theorem ageOf_eq_zero_of_closed_now {r : BandRecord} {n : Word32} (h : r.closeNumber = some n) : ageOf n r = 0 := by
  simp [ageOf, h]

theorem scoreOf_background (capacity : Nat) (counter : Word32) (r : BandRecord) :
    scoreOf .background capacity counter r
      = (1000 - useOf capacity r) * ageOf counter r / (1000 + useOf capacity r) := rfl

theorem scoreOf_urgent (capacity : Nat) (counter : Word32) (r : BandRecord) :
    scoreOf .urgent capacity counter r = 1000 - useOf capacity r := rfl

/-- The age's cap bounds the score: its factor 1000 − u is never more than the divisor 1000 + u. -/
theorem scoreOf_background_le (capacity : Nat) (counter : Word32) (r : BandRecord) :
    scoreOf .background capacity counter r ≤ 65535 :=
  have factor : 1000 - useOf capacity r ≤ 1000 + useOf capacity r := by omega
  Nat.div_le_of_le_mul (Nat.mul_le_mul factor (ageOf_le counter r))

/-- Settles O30. The use stays below 1000 because the live blocks stay below the capacity, and both scores' ranges follow from
it and the age's cap; the age of 11 across the wrap is the modular difference at those two numbers. -/
theorem cleanerScores : Obligations.CleanerScores := by
  unfold Obligations.CleanerScores
  intro capacity counter r n _ hlive hclose
  have use := useOf_le hlive
  have age := ageOf_eq_of_closeNumber counter hclose
  refine ⟨rfl, use, age, scoreOf_background .., scoreOf_background_le .., scoreOf_urgent ..,
    ?urgentLow, ?urgentHigh, ?wrap, ?closedNow⟩
  case urgentLow => rw [scoreOf_urgent]; omega
  case urgentHigh => exact Nat.sub_le ..
  case wrap =>
    rintro rfl rfl
    simpa using age
  case closedNow =>
    rintro rfl
    rw [scoreOf_background, ageOf_eq_zero_of_closed_now hclose, Nat.mul_zero, Nat.zero_div]

end Sys2Proof.Machine

/-! PROOF. O52: what an ACK MARK write does, and that every write-back event moves DONE MARK (R142, R151, R182). -/

namespace Sys2Proof.Machine

/-! ### The ACK MARK write (R142, R182) -/

/-- The state after an ACK MARK write that reaches the part. -/
def State.ackWritten (s : State) (p : Port) (v : Word64) : State :=
  (s.modPort p fun e => { e with ackMark := v }).setNotice p (noticeAck (s.notice p) (s.port p).doneMark v)

theorem exec_ackMark_of_linkUp {s : State} {p : Port} (v : Word64) (h : (s.port p).linkUp = true) :
    exec (.ackMark p v) s = .next (s.ackWritten p v) := State.throughLink_up h _

@[simp] theorem noticeAck_self (n : NoticeUnit) (d : Word64) : noticeAck n d d = endPace n := if_pos rfl

theorem noticeAck_of_ne (n : NoticeUnit) {d v : Word64} (h : v ≠ d) : noticeAck n d v = n := if_neg h

@[simp] theorem State.ackWritten_port (s : State) (p : Port) (v : Word64) :
    (s.ackWritten p v).port p = { s.port p with ackMark := v } :=
  s.modPort_port p fun e => { e with ackMark := v }

@[simp] theorem State.ackWritten_notice (s : State) (p : Port) (v : Word64) :
    (s.ackWritten p v).notice p = noticeAck (s.notice p) (s.port p).doneMark v := State.setNotice_notice ..

theorem State.ackWritten_notice_other (s : State) (p : Port) (v : Word64) :
    (s.ackWritten p v).notice (otherPort p) = s.notice (otherPort p) :=
  State.setNotice_notice_other _ (otherPort_ne p) _

/-- The pace notice asserts the line whatever the mask (R183). -/
theorem State.noticeLine_of_released {s : State} {p : Port} (released : (s.notice p).released = true)
    (unequal : (s.port p).ackMark ≠ (s.port p).doneMark) : s.noticeLine p = true := by
  simp [State.noticeLine, released, unequal]

/-! ### DONE MARK at the write-back event (R151) -/

/-- The mask clears the six low bits of the record address, so they are the count. -/
theorem doneMarkOf_count (record : Address) (count : BitVec 6) : (doneMarkOf record count).extractLsb' 0 6 = count := by
  have mask : 0x3F#64 = (BitVec.allOnes 6).setWidth 64 := rfl
  unfold doneMarkOf
  rw [mask]
  ext i hi
  have wide : i < 64 := by omega
  simp [-BitVec.reduceAllOnes, -BitVec.reduceSetWidth, hi, wide]

theorem doneMarkOf_ne {mark : Word64} {count : BitVec 6} (record : Address) (h : mark.extractLsb' 0 6 ≠ count) :
    doneMarkOf record count ≠ mark := by
  rintro rfl
  exact h (doneMarkOf_count ..)

@[simp] theorem stopWhenEmpty_doneMark (e : PortEngine) : (stopWhenEmpty e).doneMark = e.doneMark := by
  unfold stopWhenEmpty
  split
  · rfl
  · rfl

@[simp] theorem walkOn_doneMark (e : PortEngine) : (walkOn e).doneMark = e.doneMark := by
  unfold walkOn
  split
  case h_1 => split <;> rfl
  case h_2 => rfl
  case h_3 => rfl

theorem writeBackDone_doneMark {e : PortEngine} {c : Command} {rest : List Command} (h : e.list = c :: rest) :
    (writeBackDone e).doneMark = doneMarkOf c.first (e.writeBacks + 1) := by
  simp [writeBackDone, h]

theorem list_of_writeBackDue {e : PortEngine} (h : writeBackDue e = true) : ∃ c rest, e.list = c :: rest := by
  unfold writeBackDue at h
  split at h
  · exact ⟨_, _, ‹_›⟩
  · contradiction

/-- The count rises by 1 modulo 64, and so the low bits of DONE MARK change whatever record it names. -/
theorem writeBackDone_doneMark_ne {e : PortEngine} (marked : e.doneMark.extractLsb' 0 6 = e.writeBacks)
    (due : writeBackDue e = true) : (writeBackDone e).doneMark ≠ e.doneMark := by
  obtain ⟨c, rest, hlist⟩ := list_of_writeBackDue due
  have counted : e.doneMark.extractLsb' 0 6 ≠ e.writeBacks + 1 := by rw [marked]; bv_omega
  rw [writeBackDone_doneMark hlist]
  exact doneMarkOf_ne _ counted

theorem exec_writeBackEvent_of_due {s t : State} {p : Port} (due : writeBackDue (s.port p) = true)
    (h : exec (.writeBackEvent p) s = .next t) : t.port p = writeBackDone (s.port p) := by
  change execWriteBackEvent p s = _ at h
  unfold execWriteBackEvent at h
  rw [if_pos due] at h
  cases h
  exact s.modPort_port p _

/-- Settles O52. With the link UP the write is `State.ackWritten`, whose Notice Unit `noticeAck` decides by the two cases of the
comparison; a write-back event leaves a DONE MARK with another count. -/
theorem ackMarkEndsThePace : Obligations.AckMarkEndsThePace := by
  unfold Obligations.AckMarkEndsThePace
  intro s p v
  refine ⟨fun up => ⟨s.ackWritten p v, exec_ackMark_of_linkUp v up, rfl, s.ackWritten_notice_other p v, ?equal, ?unequal⟩,
    ?event⟩
  case equal =>
    rintro rfl
    rw [State.ackWritten_notice, noticeAck_self, endPace]
  case unequal =>
    intro unequal
    have kept : (s.ackWritten p v).notice p = s.notice p := by rw [State.ackWritten_notice, noticeAck_of_ne _ unequal]
    refine ⟨kept, fun released => State.noticeLine_of_released (kept ▸ released) ?_⟩
    rw [State.ackWritten_port]
    exact unequal
  case event =>
    intro marked due t h
    rw [exec_writeBackEvent_of_due due h]
    exact writeBackDone_doneMark_ne (marked p) due

end Sys2Proof.Machine
